-- ==== Sys2Proof/Word.lean ====
section
/-! DEFINITION. The value types of the hardware: the byte of a V register, a timer or a memory cell, and the 16-bit
word of I, PC, a stack entry or an instruction (00_scope.md R6, R8). -/

namespace Sys2Proof

/-- 8 bits (REG_W): a V register, DT, ST, a memory byte. Unsigned (R8). -/
abbrev Byte := BitVec 8

/-- 16 bits (I_W, PC_W, STACK_W and the instruction word). Unsigned (R8). -/
abbrev Word := BitVec 16

/-- The number of a general register V0 to VF (10_state.md R18). -/
abbrev Reg := Fin 16

/-- The number of a key 0x0 to 0xF (10_state.md R30). -/
abbrev Key := Fin 16

end Sys2Proof
end

