-- ==== Sys2Proof/Config.lean ====
section
/-! DEFINITION. What is fixed for the machine: the parameters of 00_scope.md R6, the two OPEN ones gathered in a plain
record that every state carries unchanged, and the one free value, the random byte of CXNN. The fixed sizes MEM_SIZE = 4096,
FONT_LEN = 80, STACK_DEPTH = 16, NREG = NKEYS = 16, DISP_W = 64, DISP_H = 32, PROG_BASE = 0x200, ROM_MAX = 3584 and
IPF_DEBUG = 1 stand as numerals where they are used. -/

namespace Sys2Proof

/-- The OPEN parameters of R6. `State.config` carries them and no step writes it, so a statement over every state is a
statement for every FONT and every IPF_NOMINAL (log 2, log 3). -/
structure Config where
  /-- FONT: the 80 glyph bytes (10_state.md R41, D12). -/
  font : Vector Byte 80
  /-- IPF_NOMINAL: executor calls per frame when debug is off (40_execution_cycle.md R80, D14, C1). -/
  ipfNominal : Nat
  deriving DecidableEq, Repr

/-- The free value: the random byte of the n-th draw. It has no body, so nothing can be proved of any of its values; every
CXNN takes the next n from `State.draws` (42_register_alu.md R109, D16, U6; log 1). -/
opaque Config.randomByte : Nat → Byte

end Sys2Proof
end

