-- ==== Sys2Proof/Syntax.lean ====
section
/-! DEFINITION. The 34 instructions of the hardware, one constructor per row of spec/opcode_table.json, in the table's order
(30_encoding.md R63, R69), each with the operand fields of its format (R59, R61, R62). -/

namespace Sys2Proof

/-- An instruction. X and Y are register numbers, NN an 8-bit immediate, NNN a 12-bit immediate, N a 4-bit row count (R62). -/
inductive Instr where
  /-- CLS, word 00E0: R117. -/
  | cls
  /-- RET, word 00EE: R88. -/
  | ret
  /-- JP addr, word 1NNN: R89. -/
  | jp (nnn : BitVec 12)
  /-- CALL addr, word 2NNN: R90. -/
  | call (nnn : BitVec 12)
  /-- SE Vx, byte, word 3XNN: R91. -/
  | seVxNn (x : Reg) (nn : BitVec 8)
  /-- SNE Vx, byte, word 4XNN: R92. -/
  | sneVxNn (x : Reg) (nn : BitVec 8)
  /-- SE Vx, Vy, word 5XY0: R93. -/
  | seVxVy (x : Reg) (y : Reg)
  /-- LD Vx, byte, word 6XNN: R98. -/
  | ldVxNn (x : Reg) (nn : BitVec 8)
  /-- ADD Vx, byte, word 7XNN: R99. -/
  | addVxNn (x : Reg) (nn : BitVec 8)
  /-- LD Vx, Vy, word 8XY0: R100. -/
  | ldVxVy (x : Reg) (y : Reg)
  /-- OR Vx, Vy, word 8XY1: R101. -/
  | orVxVy (x : Reg) (y : Reg)
  /-- AND Vx, Vy, word 8XY2: R102. -/
  | andVxVy (x : Reg) (y : Reg)
  /-- XOR Vx, Vy, word 8XY3: R103. -/
  | xorVxVy (x : Reg) (y : Reg)
  /-- ADD Vx, Vy, word 8XY4: R104. -/
  | addVxVy (x : Reg) (y : Reg)
  /-- SUB Vx, Vy, word 8XY5: R105. -/
  | sub (x : Reg) (y : Reg)
  /-- SHR Vx, Vy, word 8XY6: R106. -/
  | shr (x : Reg) (y : Reg)
  /-- SUBN Vx, Vy, word 8XY7: R107. -/
  | subn (x : Reg) (y : Reg)
  /-- SHL Vx, Vy, word 8XYE: R108. -/
  | shl (x : Reg) (y : Reg)
  /-- SNE Vx, Vy, word 9XY0: R94. -/
  | sneVxVy (x : Reg) (y : Reg)
  /-- LD I, addr, word ANNN: R111. -/
  | ldINnn (nnn : BitVec 12)
  /-- JP V0, addr, word BNNN: R95. -/
  | jpV0 (nnn : BitVec 12)
  /-- RND Vx, byte, word CXNN: R109. -/
  | rnd (x : Reg) (nn : BitVec 8)
  /-- DRW Vx, Vy, nibble, word DXYN: R118. -/
  | drw (x : Reg) (y : Reg) (n : BitVec 4)
  /-- SKP Vx, word EX9E: R123. -/
  | skp (x : Reg)
  /-- SKNP Vx, word EXA1: R124. -/
  | sknp (x : Reg)
  /-- LD Vx, DT, word FX07: R125. -/
  | ldVxDt (x : Reg)
  /-- LD Vx, K, word FX0A: R128. -/
  | ldVxK (x : Reg)
  /-- LD DT, Vx, word FX15: R126. -/
  | ldDtVx (x : Reg)
  /-- LD ST, Vx, word FX18: R127. -/
  | ldStVx (x : Reg)
  /-- ADD I, Vx, word FX1E: R112. -/
  | addIVx (x : Reg)
  /-- LD F, Vx, word FX29: R113. -/
  | ldFVx (x : Reg)
  /-- LD B, Vx, word FX33: R114. -/
  | ldBVx (x : Reg)
  /-- LD [I], Vx, word FX55: R115. -/
  | ldMemVx (x : Reg)
  /-- LD Vx, [I], word FX65: R116. -/
  | ldVxMem (x : Reg)
  deriving DecidableEq, Repr

/-- The fixed bits of a row of the opcode map: a word w is the instruction exactly when w AND mask = match (R69). -/
structure OpRow where
  pattern : Word
  mask : Word
  deriving DecidableEq, Repr

/-- The row of spec/opcode_table.json that an instruction belongs to (R63, R69). -/
def Instr.row : Instr → OpRow
  | .cls => ⟨0x00E0, 0xFFFF⟩
  | .ret => ⟨0x00EE, 0xFFFF⟩
  | .jp _ => ⟨0x1000, 0xF000⟩
  | .call _ => ⟨0x2000, 0xF000⟩
  | .seVxNn _ _ => ⟨0x3000, 0xF000⟩
  | .sneVxNn _ _ => ⟨0x4000, 0xF000⟩
  | .seVxVy _ _ => ⟨0x5000, 0xF00F⟩
  | .ldVxNn _ _ => ⟨0x6000, 0xF000⟩
  | .addVxNn _ _ => ⟨0x7000, 0xF000⟩
  | .ldVxVy _ _ => ⟨0x8000, 0xF00F⟩
  | .orVxVy _ _ => ⟨0x8001, 0xF00F⟩
  | .andVxVy _ _ => ⟨0x8002, 0xF00F⟩
  | .xorVxVy _ _ => ⟨0x8003, 0xF00F⟩
  | .addVxVy _ _ => ⟨0x8004, 0xF00F⟩
  | .sub _ _ => ⟨0x8005, 0xF00F⟩
  | .shr _ _ => ⟨0x8006, 0xF00F⟩
  | .subn _ _ => ⟨0x8007, 0xF00F⟩
  | .shl _ _ => ⟨0x800E, 0xF00F⟩
  | .sneVxVy _ _ => ⟨0x9000, 0xF00F⟩
  | .ldINnn _ => ⟨0xA000, 0xF000⟩
  | .jpV0 _ => ⟨0xB000, 0xF000⟩
  | .rnd _ _ => ⟨0xC000, 0xF000⟩
  | .drw _ _ _ => ⟨0xD000, 0xF000⟩
  | .skp _ => ⟨0xE09E, 0xF0FF⟩
  | .sknp _ => ⟨0xE0A1, 0xF0FF⟩
  | .ldVxDt _ => ⟨0xF007, 0xF0FF⟩
  | .ldVxK _ => ⟨0xF00A, 0xF0FF⟩
  | .ldDtVx _ => ⟨0xF015, 0xF0FF⟩
  | .ldStVx _ => ⟨0xF018, 0xF0FF⟩
  | .addIVx _ => ⟨0xF01E, 0xF0FF⟩
  | .ldFVx _ => ⟨0xF029, 0xF0FF⟩
  | .ldBVx _ => ⟨0xF033, 0xF0FF⟩
  | .ldMemVx _ => ⟨0xF055, 0xF0FF⟩
  | .ldVxMem _ => ⟨0xF065, 0xF0FF⟩

end Sys2Proof
end

