-- ==== Sys2Proof/WellFormed.lean ====
section
/-! DEFINITION. The checks on what is handed to the machine. The operand fields of `Instr` have types of exactly the widths of
30_encoding.md R61, and every value of every field is legal (R62, R64), so a term of `Instr` cannot be ill-formed. What can be
ill-formed is a row of the opcode map (R69) and a program image (60_exceptions.md R146). -/

namespace Sys2Proof

/-- A row of the opcode map is well formed when it fixes no bit outside its mask; otherwise no word could match it (R69). -/
def OpRow.wellFormed (r : OpRow) : Bool := r.pattern &&& ~~~ r.mask == 0

/-- Two rows can match one word exactly when they agree on the bits both fix (R69). -/
def OpRow.overlaps (r q : OpRow) : Bool := (r.pattern ^^^ q.pattern) &&& (r.mask &&& q.mask) == 0

/-- An instruction is well formed when its row is: its fields cannot be out of range (R62). -/
def Instr.wellFormed (i : Instr) : Bool := i.row.wellFormed

/-- A program image loads when it has at most ROM_MAX = 3584 bytes (60_exceptions.md R132, 70_reset_and_hazards.md R156). -/
def imageFits (image : List Byte) : Bool := image.length ≤ 3584

end Sys2Proof
end

