-- ==== Sys2Proof/Decode.lean ====
section
/-! DEFINITION. The decoder: the fields of an instruction word, the opcode map, and the encoder written from the same map
(30_encoding.md R58 to R66; opcode_table.json). -/

namespace Sys2Proof

/-- Why bytes do not decode to an instruction. -/
inductive DecodeReject where
  /-- Fewer than the two bytes an instruction has (R58). Safe: nothing is executed. -/
  | truncated
  /-- The word matches no row of the map (R64). The machine does not stop on it: it runs `execUnrecognized` (R76). -/
  | unrecognized (w : Word)
  deriving DecidableEq, Repr

/-- Every field of a word, whether or not an instruction uses it (R60). -/
structure Fields where
  cls : BitVec 4
  nnn : BitVec 12
  nn : BitVec 8
  n : BitVec 4
  x : Reg
  y : Reg
  deriving DecidableEq, Repr

/-- The field breakdown of R61. -/
def fieldsOf (w : Word) : Fields where
  cls := w.extractLsb' 12 4
  nnn := w.extractLsb' 0 12
  nn := w.extractLsb' 0 8
  n := w.extractLsb' 0 4
  x := (w.extractLsb' 8 4).toFin
  y := (w.extractLsb' 4 4).toFin

/-- The instruction word of two bytes, the one at the lower address most significant (20_memory.md R48, D1). -/
def wordOfBytes (b0 b1 : Byte) : Word := b0 ++ b1

/-- The byte of a word that lies at the lower address (R48). -/
def highByte (w : Word) : Byte := w.extractLsb' 8 8

/-- The byte of a word that lies at the higher address (R48). -/
def lowByte (w : Word) : Byte := w.extractLsb' 0 8

/-- Class 0x0: the whole word is fixed (R63, R66). -/
def decodeClass0 (w : Word) : Except DecodeReject Instr :=
  if w = 0x00E0 then .ok .cls else if w = 0x00EE then .ok .ret else .error (.unrecognized w)

/-- Class 0x8: the function nibble selects (R63, R64). -/
def decodeClass8 (w : Word) (f : Fields) : Except DecodeReject Instr :=
  if f.n = 0x0 then .ok (.ldVxVy f.x f.y)
  else if f.n = 0x1 then .ok (.orVxVy f.x f.y)
  else if f.n = 0x2 then .ok (.andVxVy f.x f.y)
  else if f.n = 0x3 then .ok (.xorVxVy f.x f.y)
  else if f.n = 0x4 then .ok (.addVxVy f.x f.y)
  else if f.n = 0x5 then .ok (.sub f.x f.y)
  else if f.n = 0x6 then .ok (.shr f.x f.y)
  else if f.n = 0x7 then .ok (.subn f.x f.y)
  else if f.n = 0xE then .ok (.shl f.x f.y)
  else .error (.unrecognized w)

/-- Class 0xE: the function byte selects (R63, R64). -/
def decodeClassE (w : Word) (f : Fields) : Except DecodeReject Instr :=
  if f.nn = 0x9E then .ok (.skp f.x) else if f.nn = 0xA1 then .ok (.sknp f.x) else .error (.unrecognized w)

/-- Class 0xF: the function byte selects (R63, R64). -/
def decodeClassF (w : Word) (f : Fields) : Except DecodeReject Instr :=
  if f.nn = 0x07 then .ok (.ldVxDt f.x)
  else if f.nn = 0x0A then .ok (.ldVxK f.x)
  else if f.nn = 0x15 then .ok (.ldDtVx f.x)
  else if f.nn = 0x18 then .ok (.ldStVx f.x)
  else if f.nn = 0x1E then .ok (.addIVx f.x)
  else if f.nn = 0x29 then .ok (.ldFVx f.x)
  else if f.nn = 0x33 then .ok (.ldBVx f.x)
  else if f.nn = 0x55 then .ok (.ldMemVx f.x)
  else if f.nn = 0x65 then .ok (.ldVxMem f.x)
  else .error (.unrecognized w)

/-- The opcode map of R63 with the exact decoding of R64 (D9): a word outside it is rejected as unrecognized. -/
def decode (w : Word) : Except DecodeReject Instr :=
  let f := fieldsOf w
  if f.cls = 0x0 then decodeClass0 w
  else if f.cls = 0x1 then .ok (.jp f.nnn)
  else if f.cls = 0x2 then .ok (.call f.nnn)
  else if f.cls = 0x3 then .ok (.seVxNn f.x f.nn)
  else if f.cls = 0x4 then .ok (.sneVxNn f.x f.nn)
  else if f.cls = 0x5 then (if f.n = 0x0 then .ok (.seVxVy f.x f.y) else .error (.unrecognized w))
  else if f.cls = 0x6 then .ok (.ldVxNn f.x f.nn)
  else if f.cls = 0x7 then .ok (.addVxNn f.x f.nn)
  else if f.cls = 0x8 then decodeClass8 w f
  else if f.cls = 0x9 then (if f.n = 0x0 then .ok (.sneVxVy f.x f.y) else .error (.unrecognized w))
  else if f.cls = 0xA then .ok (.ldINnn f.nnn)
  else if f.cls = 0xB then .ok (.jpV0 f.nnn)
  else if f.cls = 0xC then .ok (.rnd f.x f.nn)
  else if f.cls = 0xD then .ok (.drw f.x f.y f.n)
  else if f.cls = 0xE then decodeClassE w f
  else decodeClassF w f

/-- The decoder on memory bytes: it always consumes two (R58). -/
def decodeBytes : List Byte → Except DecodeReject (Instr × List Byte)
  | b0 :: b1 :: rest =>
    match decode (wordOfBytes b0 b1) with
    | .ok i => .ok (i, rest)
    | .error e => .error e
  | _ => .error .truncated

/-- Format A (R59): class, NNN. -/
def packA (cls : Nat) (nnn : BitVec 12) : Word := BitVec.ofNat 16 (cls * 0x1000 + nnn.toNat)

/-- Formats XNN and XF (R59): class, X, NN or function byte. -/
def packXNN (cls : Nat) (x : Reg) (nn : BitVec 8) : Word := BitVec.ofNat 16 (cls * 0x1000 + x.val * 0x100 + nn.toNat)

/-- Formats XY and XYN (R59): class, X, Y, function nibble or N. -/
def packXYN (cls : Nat) (x y : Reg) (n : BitVec 4) : Word :=
  BitVec.ofNat 16 (cls * 0x1000 + x.val * 0x100 + y.val * 0x10 + n.toNat)

/-- The one word of an instruction (R59, R63). -/
def encode : Instr → Word
  | .cls => 0x00E0
  | .ret => 0x00EE
  | .jp nnn => packA 0x1 nnn
  | .call nnn => packA 0x2 nnn
  | .seVxNn x nn => packXNN 0x3 x nn
  | .sneVxNn x nn => packXNN 0x4 x nn
  | .seVxVy x y => packXYN 0x5 x y 0x0
  | .ldVxNn x nn => packXNN 0x6 x nn
  | .addVxNn x nn => packXNN 0x7 x nn
  | .ldVxVy x y => packXYN 0x8 x y 0x0
  | .orVxVy x y => packXYN 0x8 x y 0x1
  | .andVxVy x y => packXYN 0x8 x y 0x2
  | .xorVxVy x y => packXYN 0x8 x y 0x3
  | .addVxVy x y => packXYN 0x8 x y 0x4
  | .sub x y => packXYN 0x8 x y 0x5
  | .shr x y => packXYN 0x8 x y 0x6
  | .subn x y => packXYN 0x8 x y 0x7
  | .shl x y => packXYN 0x8 x y 0xE
  | .sneVxVy x y => packXYN 0x9 x y 0x0
  | .ldINnn nnn => packA 0xA nnn
  | .jpV0 nnn => packA 0xB nnn
  | .rnd x nn => packXNN 0xC x nn
  | .drw x y n => packXYN 0xD x y n
  | .skp x => packXNN 0xE x 0x9E
  | .sknp x => packXNN 0xE x 0xA1
  | .ldVxDt x => packXNN 0xF x 0x07
  | .ldVxK x => packXNN 0xF x 0x0A
  | .ldDtVx x => packXNN 0xF x 0x15
  | .ldStVx x => packXNN 0xF x 0x18
  | .addIVx x => packXNN 0xF x 0x1E
  | .ldFVx x => packXNN 0xF x 0x29
  | .ldBVx x => packXNN 0xF x 0x33
  | .ldMemVx x => packXNN 0xF x 0x55
  | .ldVxMem x => packXNN 0xF x 0x65

/-- The 34 rows of spec/opcode_table.json, (match, mask), in the table's order (R69). -/
def opTable : List OpRow :=
  [⟨0x00E0, 0xFFFF⟩, ⟨0x00EE, 0xFFFF⟩, ⟨0x1000, 0xF000⟩, ⟨0x2000, 0xF000⟩, ⟨0x3000, 0xF000⟩,
   ⟨0x4000, 0xF000⟩, ⟨0x5000, 0xF00F⟩, ⟨0x6000, 0xF000⟩, ⟨0x7000, 0xF000⟩, ⟨0x8000, 0xF00F⟩,
   ⟨0x8001, 0xF00F⟩, ⟨0x8002, 0xF00F⟩, ⟨0x8003, 0xF00F⟩, ⟨0x8004, 0xF00F⟩, ⟨0x8005, 0xF00F⟩,
   ⟨0x8006, 0xF00F⟩, ⟨0x8007, 0xF00F⟩, ⟨0x800E, 0xF00F⟩, ⟨0x9000, 0xF00F⟩, ⟨0xA000, 0xF000⟩,
   ⟨0xB000, 0xF000⟩, ⟨0xC000, 0xF000⟩, ⟨0xD000, 0xF000⟩, ⟨0xE09E, 0xF0FF⟩, ⟨0xE0A1, 0xF0FF⟩,
   ⟨0xF007, 0xF0FF⟩, ⟨0xF00A, 0xF0FF⟩, ⟨0xF015, 0xF0FF⟩, ⟨0xF018, 0xF0FF⟩, ⟨0xF01E, 0xF0FF⟩,
   ⟨0xF029, 0xF0FF⟩, ⟨0xF033, 0xF0FF⟩, ⟨0xF055, 0xF0FF⟩, ⟨0xF065, 0xF0FF⟩]

/-- A word matches a row when its fixed bits are the row's (R69). -/
def OpRow.matches (r : OpRow) (w : Word) : Bool := w &&& r.mask == r.pattern

/-- The 16-bit word the host means by `nbits` bits of value `w` (bits above `nbits` are 0). -/
def tableWord (nbits w : Nat) : Word := BitVec.ofNat 16 (w % 2 ^ nbits)

/-- The host's question to the decoder: the word laid out as the hardware stores it, high byte first (R48), then decoded. -/
def decodeTableWord (nbits w : Nat) : Option Instr :=
  match decodeBytes [highByte (tableWord nbits w), lowByte (tableWord nbits w)] with
  | .ok (i, _) => some i
  | .error _ => none

end Sys2Proof
end

