-- ==== Sys2Proof/Machine/State.lean ====
section
/-! DEFINITION. The Machine State of 10_state.md R16, one field per row of its table, followed by the model's own fields (the
outputs of a call, the batch position, the event history, the host's coming actions, the image kept by the boundary, the index
of the free value and the parameters). All of it plain data. `State.reset` is the state right after reset (70 R155). -/

namespace Sys2Proof.Machine

/-- The framebuffer, 32 rows of 64 pixels, true = lit (10_state.md R31): pixel (x, y), the spec's `display[y*64 + x]`, is entry
x of row y. -/
abbrev Display := Vector (Vector Bool 64) 32

/-- The FX0A sub-instruction state (10_state.md R32). -/
inductive KeyWait where
  | idle
  | keyCaptured (k : Key)
  deriving DecidableEq, Repr

/-- run_state (10_state.md R33, 60_exceptions.md R154). -/
inductive RunState where
  | running
  | paused
  | halted
  deriving DecidableEq, Repr

/-- The inert variant selector: Base and two variants the source does not name (10_state.md R34, D24). -/
inductive Mode where
  | base
  | placeholderA
  | placeholderB
  deriving DecidableEq, Repr

/-- The kinds of fault (60_exceptions.md R138). -/
inductive FaultKind where
  /-- A memory access at an address of 4096 or more. -/
  | memRange
  /-- EX9E or EXA1 with VX of 16 or more. -/
  | keyRange
  deriving DecidableEq, Repr

/-- The latched fault (10_state.md R35): `word` is absent for a fault during fetch. -/
structure FaultRecord where
  kind : FaultKind
  pc : Word
  word : Option Word
  addr : Nat
  deriving DecidableEq, Repr

/-- The kinds of diagnostic (60_exceptions.md R133 to R135). -/
inductive DiagKind where
  | stackOverflow
  | stackUnderflow
  | unrecognizedOpcode
  deriving DecidableEq, Repr

/-- A diagnostic event (60_exceptions.md R136, D17): the address and the word of the instruction that emitted it. -/
structure Diag where
  kind : DiagKind
  pc : Word
  word : Word
  deriving DecidableEq, Repr

/-- The two outputs of an executor call (10_state.md R36). -/
structure CallOutput where
  redraw : Bool
  diag : Option Diag
  deriving DecidableEq, Repr

/-- What the core sends to the host (60_exceptions.md R132, R136, R148, R149). -/
inductive Event where
  | diagnostic (d : Diag)
  | framebuffer (pixels : Display)
  | tone (active : Bool)
  | romTooLarge (limit size : Nat)
  deriving DecidableEq, Repr

/-- What the host may do between two frames (60_exceptions.md R146, R147, R150, R151). -/
inductive HostAction where
  | load (image : List Byte)
  | keypad (vector : Vector Bool 16)
  | quit
  | pauseToggle
  | resetMachine
  | debugToggle
  | selectMode (m : Mode)
  deriving DecidableEq, Repr

/-- The machine. -/
structure State where
  /-- The cells that differ from the reset contents, addresses strictly rising (R37, R40; log 6). -/
  memory : List Host.Cell
  /-- V0 to VF (R18). -/
  v : Vector Byte 16
  /-- I (R26). -/
  i : Word
  /-- PC (R23). -/
  pc : Word
  /-- The return stack (R27). -/
  stack : Vector Word 16
  /-- SP, the number of valid entries (R27). -/
  sp : Fin 17
  /-- delay_timer (R29). -/
  dt : Byte
  /-- sound_timer (R29). -/
  st : Byte
  /-- The key latches, true = pressed (R30). -/
  keypad : Vector Bool 16
  /-- The framebuffer (R31). -/
  display : Display
  /-- key_wait (R32). -/
  keyWait : KeyWait
  /-- run_state (R33). -/
  runState : RunState
  /-- debug_enabled (R33). -/
  debugEnabled : Bool
  /-- mode (R34). -/
  mode : Mode
  /-- The fault latch (R35). -/
  fault : Option FaultRecord
  /-- Model's own: outputs of the last executor call (R36; log 5). -/
  call : CallOutput
  /-- Model's own: executor calls made in the running frame, 0 between frames (R38(c), 40 R78; log 7). -/
  batch : Nat
  /-- Model's own: the event history, newest first (60 R136; log 8). -/
  events : List Event
  /-- Model's own: the host's actions before each coming frame, next frame first (40 R83; log 9). -/
  inputs : List (List HostAction)
  /-- Model's own: the host's own keypad vector, true = pressed, which the core copies into `keypad` at the start of every frame
  (60 R147, 70 R158; log 20). -/
  hostKeys : Vector Bool 16
  /-- Model's own: the image of the last successful load, kept by the boundary (70 R155, R156; log 10). -/
  image : List Byte
  /-- Model's own: random bytes drawn so far, the index of the free value (42 R109; log 1). -/
  draws : Nat
  /-- Model's own: the OPEN parameters, never written (00 R6; log 2, log 3). -/
  config : Config
  deriving DecidableEq, Repr

/-- Reasons to stop for good. There is none: every fault of this hardware is an entry the spec describes (60_exceptions.md R139),
which the machine takes as a next state with the fault latched and run_state Halted (log 11). -/
inductive Fault where
  deriving DecidableEq, Repr

/-- Reasons to have no meaning. The spec leaves none (93_implementation_defined.md: no behaviour is treated as refuse). -/
inductive Refusal where
  /-- Raised by an arm of `exec` whose instruction has no meaning yet; no arm does. Safe: the machine stops. -/
  | notModelled (mnemonic : String)
  deriving DecidableEq, Repr

/-- No output: the value before the first call and of a call that draws nothing and reports nothing. -/
def CallOutput.none : CallOutput := { redraw := false, diag := Option.none }

/-- An unlit framebuffer. -/
def Display.clear : Display := Vector.replicate 32 (Vector.replicate 64 false)

/-- The machine right after reset with no image loaded: every field of R16 at its reset value (70 R155, R156 with L = 0). -/
def State.reset : State where
  memory := []
  v := Vector.replicate 16 0
  i := 0
  pc := 0x200
  stack := Vector.replicate 16 0
  sp := 0
  dt := 0
  st := 0
  keypad := Vector.replicate 16 false
  display := Display.clear
  keyWait := .idle
  runState := .running
  debugEnabled := false
  mode := .base
  fault := Option.none
  call := CallOutput.none
  batch := 0
  events := []
  inputs := []
  hostKeys := Vector.replicate 16 false
  image := []
  draws := 0
  config := Config.default

end Sys2Proof.Machine
end

