-- ==== Sys2Proof/Machine/Ops.lean ====
section
/-! DEFINITION. The named operations over registers, memory, stack, pixels and key latches; the start of an executor call; fault
entry and what clears it; fetch. Every meaning is built from these. -/

namespace Sys2Proof.Machine

/-! ### Registers -/

/-- VF, the flag register (10_state.md R21). -/
def vf : Reg := 0xF

/-- `V[r]` (R9, R18). -/
def State.getV (s : State) (r : Reg) : Byte := s.v[r]

/-- `V[r] <- b` (R9, R19). -/
def State.setV (s : State) (r : Reg) (b : Byte) : State := { s with v := s.v.set r b }

/-- `I <- w` (R26). -/
def State.setI (s : State) (w : Word) : State := { s with i := w }

/-- `PC <- w` (R23, R24: no mask). -/
def State.setPc (s : State) (w : Word) : State := { s with pc := w }

/-- `DT <- b` (R29). -/
def State.setDt (s : State) (b : Byte) : State := { s with dt := b }

/-- `ST <- b` (R29). -/
def State.setSt (s : State) (b : Byte) : State := { s with st := b }

/-- `key_wait <- k` (R32). -/
def State.setKeyWait (s : State) (k : KeyWait) : State := { s with keyWait := k }

/-! ### The executor call -/

/-- The start of a call after the fetch: PC advances by 2 modulo 65536 (40_execution_cycle.md R72) and the outputs of the call are
cleared (R74, R75). Every meaning begins with it. -/
def State.enter (s : State) : State := { s with pc := s.pc + 2, call := CallOutput.none }

/-- A taken skip: PC <- (PC + 2) mod 65536 (R72). -/
def State.skip (s : State) : State := { s with pc := s.pc + 2 }

/-- A skip that is taken when `c` holds. -/
def State.skipIf (s : State) (c : Bool) : State := if c then s.skip else s

/-- FX0A waiting: PC <- (PC - 2) mod 65536 (R72, 45_keypad_timers.md R128). -/
def State.rewind (s : State) : State := { s with pc := s.pc - 2 }

/-- `request_redraw()` (00_scope.md R12, R74). -/
def State.requestRedraw (s : State) : State := { s with call := { s.call with redraw := true } }

/-- `signal Diag(kind, …)` by the instruction at `pc` with word `w` (R12, 60_exceptions.md R136). -/
def State.signal (s : State) (kind : DiagKind) (pc w : Word) : State :=
  { s with call := { s.call with diag := some { kind := kind, pc := pc, word := w } } }

/-! ### Faults -/

/-- `raise Fault(kind, addr)` before it is latched (R12). -/
structure Raise where
  kind : FaultKind
  addr : Nat
  deriving DecidableEq, Repr

/-- A computation that may raise a fault. -/
abbrev Attempt (α : Type) := Except Raise α

/-- Fault entry (60_exceptions.md R139, 40_execution_cycle.md R77): the state before the call with only the fault latched,
run_state Halted and the outputs of the call empty. PC stays at the faulting instruction. -/
def State.takeFault (s : State) (word : Option Word) (r : Raise) : State :=
  { s with
    fault := some { kind := r.kind, pc := s.pc, word := word, addr := r.addr }
    runState := .halted
    call := CallOutput.none }

/-- The end of an instruction that may raise: its result, or fault entry from the state before it (R77: none of its writes stay). -/
def conclude (i : Instr) (s : State) : Attempt State → Host.Outcome State Fault Refusal
  | .ok t => .next t
  | .error r => .next (s.takeFault (some (encode i)) r)

/-! ### Memory -/

/-- What an unlisted address reads as: the reset contents, the font at 0x000 to 0x04F and 0 above (10_state.md R40, D28). -/
def Memory.base (font : Vector Byte 80) (a : Nat) : Byte := if h : a < 80 then font[a] else 0

/-- The byte at an address. -/
def Memory.read (font : Vector Byte 80) : List Host.Cell → Nat → Byte
  | [], a => Memory.base font a
  | c :: cs, a => if c.1 = a then c.2 else Memory.read font cs a

/-- The cell to list for a byte at an address: none when it is what the address reads as unlisted. -/
def Memory.cell (font : Vector Byte 80) (a : Nat) (b : Byte) : List Host.Cell :=
  if b = Memory.base font a then [] else [(a, b)]

/-- Writing one byte, keeping the canonical form. -/
def Memory.write (font : Vector Byte 80) : List Host.Cell → Nat → Byte → List Host.Cell
  | [], a, b => Memory.cell font a b
  | c :: cs, a, b =>
    if a < c.1 then Memory.cell font a b ++ c :: cs
    else if a = c.1 then Memory.cell font a b ++ cs
    else c :: Memory.write font cs a b

/-- The canonical form from address `lo` on: addresses strictly rising and below 4096, no cell equal to the reset contents. -/
def Memory.wfFrom (font : Vector Byte 80) : Nat → List Host.Cell → Bool
  | _, [] => true
  | lo, c :: cs => decide (lo ≤ c.1) && decide (c.1 < 4096) && (c.2 != Memory.base font c.1) && Memory.wfFrom font (c.1 + 1) cs

/-- The canonical form of a memory (log 6). -/
def Memory.wf (font : Vector Byte 80) (m : List Host.Cell) : Bool := Memory.wfFrom font 0 m

/-- The cells of a program image placed from address `a` on (10_state.md R40). -/
def Memory.ofImage (font : Vector Byte 80) : Nat → List Byte → List Host.Cell
  | _, [] => []
  | a, b :: bs => Memory.cell font a b ++ Memory.ofImage font (a + 1) bs

/-- The byte at an address of the state's memory. -/
def State.byteAt (s : State) (a : Nat) : Byte := Memory.read s.config.font s.memory a

/-- The state with one byte of memory replaced. -/
def State.setByte (s : State) (a : Nat) (b : Byte) : State := { s with memory := Memory.write s.config.font s.memory a b }

/-- `MemRead(a, 1)` (00_scope.md R11, 20_memory.md R47): `a` is unbounded; 4096 or more raises MEM_RANGE. -/
def State.memRead (s : State) (a : Nat) : Attempt Byte :=
  if a < 4096 then .ok (s.byteAt a) else .error { kind := .memRange, addr := a }

/-- `MemWrite(a, 1, b)` (R11, R47). -/
def State.memWrite (s : State) (a : Nat) (b : Byte) : Attempt State :=
  if a < 4096 then .ok (s.setByte a b) else .error { kind := .memRange, addr := a }

/-- The fetch of R71: two byte reads at PC and PC + 1, PC + 1 unbounded, high byte first (20_memory.md R48). -/
def State.fetch (s : State) : Attempt Word :=
  match s.memRead s.pc.toNat with
  | .error r => .error r
  | .ok b0 =>
    match s.memRead (s.pc.toNat + 1) with
    | .error r => .error r
    | .ok b1 => .ok (wordOfBytes b0 b1)

/-! ### The stack controller (41_control_flow.md R87) -/

/-- A push; none when the stack is full. -/
def State.push (s : State) (w : Word) : Option State :=
  if h : s.sp.val < 16 then some { s with stack := s.stack.set s.sp.val w, sp := ⟨s.sp.val + 1, by omega⟩ } else none

/-- A pop into PC; none when the stack is empty. The popped entry keeps its value (10_state.md R28, D29). -/
def State.popPc (s : State) : Option State :=
  if h : s.sp.val = 0 then none
  else some { s with sp := ⟨s.sp.val - 1, by omega⟩, pc := s.stack[s.sp.val - 1]'(by omega) }

/-! ### Pixels and keys -/

/-- Pixel (x, y) (10_state.md R31). -/
def Display.get (d : Display) (x : Fin 64) (y : Fin 32) : Bool := d[y][x]

/-- The framebuffer with pixel (x, y) replaced. -/
def Display.put (d : Display) (x : Fin 64) (y : Fin 32) (b : Bool) : Display := d.set y (d[y].set x b)

/-- Pixel (x, y) of the state. -/
def State.pixel (s : State) (x : Fin 64) (y : Fin 32) : Bool := s.display.get x y

/-- The state with pixel (x, y) replaced. -/
def State.setPixel (s : State) (x : Fin 64) (y : Fin 32) (b : Bool) : State := { s with display := s.display.put x y b }

/-- The latch of key k (10_state.md R30). -/
def State.pressed (s : State) (k : Key) : Bool := s.keypad[k]

/-- The keys in rising order. -/
def allKeys : List Key := [0, 1, 2, 3, 4, 5, 6, 7, 8, 9, 10, 11, 12, 13, 14, 15]

/-- The lowest-numbered pressed key (45_keypad_timers.md R129(c), D18). -/
def State.leastPressed (s : State) : Option Key := allKeys.find? s.pressed

/-! ### Reset and load, the only ways out of a fault (60_exceptions.md R140) -/

/-- The state's fields of 10_state.md R16 replaced by `init(P)` (70_reset_and_hazards.md R155): memory as R40, every other field at
its reset value. What survives is outside the Machine State (R158): history, coming inputs, the host's keypad vector, image, random source, parameters. -/
def State.init (s : State) (image : List Byte) : State :=
  { State.reset with
    memory := Memory.ofImage s.config.font 0x200 image
    events := s.events
    inputs := s.inputs
    hostKeys := s.hostKeys
    image := image
    draws := s.draws
    config := s.config }

end Sys2Proof.Machine
end

