-- ==== Sys2Proof/Machine/Operands.lean ====
section
/-! DEFINITION. The operand forms: the immediates and the registers of 30_encoding.md R62, the effective address of
43_index_memory.md R110, the register block of FX55 and FX65, the sprite origin of 44_display.md R118 and the decimal digits of
43_index_memory.md R114. -/

namespace Sys2Proof.Machine

/-- NNN zero-extended to 16 bits (R62). -/
def zext16 (nnn : BitVec 12) : Word := nnn.setWidth 16

/-- A byte zero-extended to 16 bits, as an offset of I or of NNN (R62). -/
def byteToWord (b : Byte) : Word := b.setWidth 16

/-- EA = I + k, unbounded (R110, 20_memory.md R47). -/
def State.ea (s : State) (k : Nat) : Nat := s.i.toNat + k

/-- The registers V0 to VF in rising order. -/
def allRegs : List Reg := [0, 1, 2, 3, 4, 5, 6, 7, 8, 9, 10, 11, 12, 13, 14, 15]

/-- The block V0 to VX of FX55 and FX65, V0 first (R115, R116). -/
def blockTo (x : Reg) : List Reg := allRegs.take (x.val + 1)

/-- I after a block transfer of V0 to VX: (I + X + 1) mod 65536 (R115, R116). -/
def State.iPastBlock (s : State) (x : Reg) : Word := s.i + BitVec.ofNat 16 (x.val + 1)

/-- The key named by VX, or the KEY_RANGE fault when VX is 16 or more (45_keypad_timers.md R122, D10). -/
def keyOf (b : Byte) : Attempt Key :=
  if h : b.toNat < 16 then .ok ⟨b.toNat, h⟩ else .error { kind := .keyRange, addr := b.toNat }

/-- A key number as a byte (R128: `V[X] <- k`). -/
def keyByte (k : Key) : Byte := BitVec.ofNat 8 k.val

/-- Column of the sprite origin: VX mod 64 (R118, R119). -/
def originX (b : Byte) : Nat := b.toNat % 64

/-- Row of the sprite origin: VY mod 32 (R118, R119). -/
def originY (b : Byte) : Nat := b.toNat % 32

/-- Bit `bit` of a sprite row counted from the left: (b >> (7 - bit)) & 1 (R118). -/
def spriteBit (b : Byte) (bit : Nat) : Bool := b.getLsbD (7 - bit)

/-- The hundreds digit, v / 100 (R114). -/
def hundreds (b : Byte) : Byte := BitVec.ofNat 8 (b.toNat / 100)

/-- The tens digit, (v / 10) mod 10 (R114). -/
def tens (b : Byte) : Byte := BitVec.ofNat 8 (b.toNat / 10 % 10)

/-- The ones digit, v mod 10 (R114). -/
def ones (b : Byte) : Byte := BitVec.ofNat 8 (b.toNat % 10)

/-- The address of the glyph of a byte: VX * 5, not masked (R113). -/
def glyphAddress (b : Byte) : Word := BitVec.ofNat 16 (b.toNat * 5)

end Sys2Proof.Machine
end

