-- ==== Sys2Proof/Machine/Flags.lean ====
section
/-! DEFINITION. The flag-write engine: every value that an instruction writes to VF as a side effect (10_state.md R21,
42_register_alu.md R96, R97) and the write itself. The ORDER of the flag write and the result write is each meaning's own. -/

namespace Sys2Proof.Machine

/-- A flag as a byte: 1 for true, 0 for false (00_scope.md R8). -/
def flagByte (c : Bool) : Byte := if c then 1 else 0

/-- VF <- flag (R97: an explicit, named write). -/
def State.setFlag (s : State) (c : Bool) : State := s.setV vf (flagByte c)

/-- Carry of 8XY4: the exact sum exceeds 255 (R96, R104). -/
def carryOf (a b : Byte) : Bool := decide (a.toNat + b.toNat > 255)

/-- No borrow of `minuend - subtrahend`: the subtrahend is at most the minuend (R96, R105, R107). -/
def noBorrow (minuend subtrahend : Byte) : Bool := decide (subtrahend.toNat ≤ minuend.toNat)

/-- The bit 8XY6 shifts out: bit 0 (R106). -/
def shiftedOutRight (b : Byte) : Bool := b.getLsbD 0

/-- The bit 8XYE shifts out: bit 7 (R108). -/
def shiftedOutLeft (b : Byte) : Bool := b.getLsbD 7

/-- The sum modulo 256 (R19, R96). -/
def sum8 (a b : Byte) : Byte := BitVec.ofNat 8 (a.toNat + b.toNat)

/-- The difference a - b modulo 256 (R19, R96). -/
def diff8 (a b : Byte) : Byte := BitVec.ofInt 8 ((a.toNat : Int) - (b.toNat : Int))

end Sys2Proof.Machine
end

