-- ==== Sys2Proof/Machine/Alu.lean ====
section
/-! DEFINITION. Register loads, arithmetic, logic and the random byte (42_register_alu.md). Pseudocode is sequential
(00_scope.md R10): the order of the two register writes of each meaning is the order of its rule (R97, D6). -/

namespace Sys2Proof.Machine

/-- A result into VX, then the flag into VF (R97: 8XY1 to 8XY5 and 8XY7). -/
def State.resultThenFlag (s : State) (x : Reg) (result : Byte) (flag : Bool) : State := (s.setV x result).setFlag flag

/-- 6XNN (R98). -/
def execLdVxNn (x : Reg) (nn : BitVec 8) (s : State) : Host.Outcome State Fault Refusal :=
  .next (s.enter.setV x nn)

/-- 7XNN (R99): no flag. -/
def execAddVxNn (x : Reg) (nn : BitVec 8) (s : State) : Host.Outcome State Fault Refusal :=
  .next (s.enter.setV x (sum8 (s.getV x) nn))

/-- 8XY0 (R100). -/
def execLdVxVy (x y : Reg) (s : State) : Host.Outcome State Fault Refusal :=
  .next (s.enter.setV x (s.getV y))

/-- 8XY1 (R101): OR, then VF = 0. -/
def execOrVxVy (x y : Reg) (s : State) : Host.Outcome State Fault Refusal :=
  .next (s.enter.resultThenFlag x (s.getV x ||| s.getV y) false)

/-- 8XY2 (R102): AND, then VF = 0. -/
def execAndVxVy (x y : Reg) (s : State) : Host.Outcome State Fault Refusal :=
  .next (s.enter.resultThenFlag x (s.getV x &&& s.getV y) false)

/-- 8XY3 (R103): XOR, then VF = 0. -/
def execXorVxVy (x y : Reg) (s : State) : Host.Outcome State Fault Refusal :=
  .next (s.enter.resultThenFlag x (s.getV x ^^^ s.getV y) false)

/-- 8XY4 (R104): sum, then VF = carry of the original operands. -/
def execAddVxVy (x y : Reg) (s : State) : Host.Outcome State Fault Refusal :=
  .next (s.enter.resultThenFlag x (sum8 (s.getV x) (s.getV y)) (carryOf (s.getV x) (s.getV y)))

/-- 8XY5 (R105): VX - VY, then VF = no borrow of the original operands. -/
def execSub (x y : Reg) (s : State) : Host.Outcome State Fault Refusal :=
  .next (s.enter.resultThenFlag x (diff8 (s.getV x) (s.getV y)) (noBorrow (s.getV x) (s.getV y)))

/-- 8XY6 (R106): VF = bit 0 of VY first, then VX = VY >> 1 with VY read again. -/
def execShr (x y : Reg) (s : State) : Host.Outcome State Fault Refusal :=
  let t := s.enter.setFlag (shiftedOutRight (s.getV y))
  .next (t.setV x (t.getV y >>> 1))

/-- 8XY7 (R107): VY - VX, then VF = no borrow of the original operands. -/
def execSubn (x y : Reg) (s : State) : Host.Outcome State Fault Refusal :=
  .next (s.enter.resultThenFlag x (diff8 (s.getV y) (s.getV x)) (noBorrow (s.getV y) (s.getV x)))

/-- 8XYE (R108): VF = bit 7 of VY first, then VX = VY << 1 with VY read again. -/
def execShl (x y : Reg) (s : State) : Host.Outcome State Fault Refusal :=
  let t := s.enter.setFlag (shiftedOutLeft (s.getV y))
  .next (t.setV x (t.getV y <<< 1))

/-- `draw_random()` (R109, D16): the next free byte, and the state that has taken it. -/
def State.drawRandom (s : State) : Byte × State := (Config.randomByte s.draws, { s with draws := s.draws + 1 })

/-- CXNN (R109): the random byte AND NN. -/
def execRnd (x : Reg) (nn : BitVec 8) (s : State) : Host.Outcome State Fault Refusal :=
  .next (s.enter.drawRandom.2.setV x (s.enter.drawRandom.1 &&& nn))

end Sys2Proof.Machine
end

