-- ==== Sys2Proof/Machine/Control.lean ====
section
/-! DEFINITION. Control flow and the stack controller (41_control_flow.md), and the unrecognized opcode (40_execution_cycle.md
R76). Each meaning takes the state whose PC is the address of the instruction. -/

namespace Sys2Proof.Machine

/-- A word that matches no row (R76): the PC advance and the diagnostic, nothing else. -/
def execUnrecognized (w : Word) (s : State) : Host.Outcome State Fault Refusal :=
  .next (s.enter.signal .unrecognizedOpcode s.pc w)

/-- 00EE (R88): pop into PC; on an empty stack a diagnostic and nothing else (D5). -/
def execRet (s : State) : Host.Outcome State Fault Refusal :=
  match s.enter.popPc with
  | some t => .next t
  | none => .next (s.enter.signal .stackUnderflow s.pc (encode .ret))

/-- 1NNN (R89). -/
def execJp (nnn : BitVec 12) (s : State) : Host.Outcome State Fault Refusal :=
  .next (s.enter.setPc (zext16 nnn))

/-- 2NNN (R90): push the advanced PC and jump; on a full stack a diagnostic and nothing else (D4). -/
def execCall (nnn : BitVec 12) (s : State) : Host.Outcome State Fault Refusal :=
  match s.enter.push s.enter.pc with
  | some t => .next (t.setPc (zext16 nnn))
  | none => .next (s.enter.signal .stackOverflow s.pc (encode (.call nnn)))

/-- 3XNN (R91). -/
def execSeVxNn (x : Reg) (nn : BitVec 8) (s : State) : Host.Outcome State Fault Refusal :=
  .next (s.enter.skipIf (s.getV x == nn))

/-- 4XNN (R92). -/
def execSneVxNn (x : Reg) (nn : BitVec 8) (s : State) : Host.Outcome State Fault Refusal :=
  .next (s.enter.skipIf (s.getV x != nn))

/-- 5XY0 (R93). -/
def execSeVxVy (x y : Reg) (s : State) : Host.Outcome State Fault Refusal :=
  .next (s.enter.skipIf (s.getV x == s.getV y))

/-- 9XY0 (R94). -/
def execSneVxVy (x y : Reg) (s : State) : Host.Outcome State Fault Refusal :=
  .next (s.enter.skipIf (s.getV x != s.getV y))

/-- BNNN (R95): V0 + NNN, not masked (D7). -/
def execJpV0 (nnn : BitVec 12) (s : State) : Host.Outcome State Fault Refusal :=
  .next (s.enter.setPc (byteToWord (s.getV 0) + zext16 nnn))

end Sys2Proof.Machine
end

