-- ==== Sys2Proof/Machine/Display.lean ====
section
/-! DEFINITION. The display instructions and the collision flag (44_display.md). Both request a redraw, which ends the batch. -/

namespace Sys2Proof.Machine

/-- 00E0 (R117): every pixel unlit; VF untouched. -/
def execCls (s : State) : Host.Outcome State Fault Refusal :=
  .next ({ s.enter with display := Display.clear }.requestRedraw)

/-- One set sprite bit on pixel (x, y): a lit pixel sets VF, and the pixel flips (R118). -/
def State.flipPixel (s : State) (x : Fin 64) (y : Fin 32) : State :=
  (if s.pixel x y then s.setFlag true else s).setPixel x y (!s.pixel x y)

/-- The bits `bits` (counted from the left) of sprite row `b` drawn from column x0 on row y; stops at the right edge (R118, R119). -/
def State.drawBits (s : State) (b : Byte) (x0 : Nat) (y : Fin 32) : List Nat → State
  | [] => s
  | bit :: bits =>
    if h : x0 + bit < 64 then
      (if spriteBit b bit then s.flipPixel ⟨x0 + bit, h⟩ y else s).drawBits b x0 y bits
    else s

/-- The eight bits of a sprite row, left to right. -/
def spriteBits : List Nat := [0, 1, 2, 3, 4, 5, 6, 7]

/-- `rows` sprite rows from memory address `a` drawn from row y on; stops at the bottom edge before reading (R118, R119, D15). -/
def State.drawRows (s : State) (x0 y a : Nat) : Nat → Attempt State
  | 0 => .ok s
  | rows + 1 =>
    if h : y < 32 then
      match s.memRead a with
      | .error r => .error r
      | .ok b => (s.drawBits b x0 ⟨y, h⟩ spriteBits).drawRows x0 (y + 1) (a + 1) rows
    else .ok s

/-- DXYN (R118): the origin is read before VF is cleared (R120, D15); a fault leaves nothing drawn (R77). -/
def execDrw (x y : Reg) (n : BitVec 4) (s : State) : Host.Outcome State Fault Refusal :=
  conclude (.drw x y n) s
    (((s.enter.setFlag false).drawRows (originX (s.getV x)) (originY (s.getV y)) (s.ea 0) n.toNat).map State.requestRedraw)

end Sys2Proof.Machine
end

