-- ==== Sys2Proof/Machine/Index.lean ====
section
/-! DEFINITION. The index register and memory transfers (43_index_memory.md). A MEM_RANGE fault undoes every write of the
instruction (40_execution_cycle.md R77): `conclude` then takes the fault from the state before it. -/

namespace Sys2Proof.Machine

/-- ANNN (R111). -/
def execLdINnn (nnn : BitVec 12) (s : State) : Host.Outcome State Fault Refusal :=
  .next (s.enter.setI (zext16 nnn))

/-- FX1E (R112): 16-bit wrap, VF untouched. -/
def execAddIVx (x : Reg) (s : State) : Host.Outcome State Fault Refusal :=
  .next (s.enter.setI (s.i + byteToWord (s.getV x)))

/-- FX29 (R113). -/
def execLdFVx (x : Reg) (s : State) : Host.Outcome State Fault Refusal :=
  .next (s.enter.setI (glyphAddress (s.getV x)))

/-- Single-byte writes at increasing addresses (20_memory.md R45); the first out-of-range address raises. -/
def State.writeBytes (s : State) (a : Nat) : List Byte → Attempt State
  | [] => .ok s
  | b :: bs =>
    match s.memWrite a b with
    | .error r => .error r
    | .ok t => t.writeBytes (a + 1) bs

/-- Single-byte reads at increasing addresses into the registers listed; the first out-of-range address raises. -/
def State.readRegs (s : State) (a : Nat) : List Reg → Attempt State
  | [] => .ok s
  | r :: rs =>
    match s.memRead a with
    | .error e => .error e
    | .ok b => (s.setV r b).readRegs (a + 1) rs

/-- FX33 (R114): hundreds, tens, ones at I, I + 1, I + 2; I unchanged. -/
def execLdBVx (x : Reg) (s : State) : Host.Outcome State Fault Refusal :=
  conclude (.ldBVx x) s
    (s.enter.writeBytes (s.ea 0) [hundreds (s.getV x), tens (s.getV x), ones (s.getV x)])

/-- FX55 (R115): V0 to VX at I to I + X, then I past the block. -/
def execLdMemVx (x : Reg) (s : State) : Host.Outcome State Fault Refusal :=
  conclude (.ldMemVx x) s
    ((s.enter.writeBytes (s.ea 0) ((blockTo x).map s.getV)).map fun t => t.setI (s.iPastBlock x))

/-- FX65 (R116): V0 to VX from I to I + X, then I past the block. -/
def execLdVxMem (x : Reg) (s : State) : Host.Outcome State Fault Refusal :=
  conclude (.ldVxMem x) s
    ((s.enter.readRegs (s.ea 0) (blockTo x)).map fun t => t.setI (s.iPastBlock x))

end Sys2Proof.Machine
end

