-- ==== Sys2Proof/Machine/Keypad.lean ====
section
/-! DEFINITION. The keypad and timer instructions (45_keypad_timers.md). -/

namespace Sys2Proof.Machine

/-- EX9E (R123): skip if the key named by VX is pressed; KEY_RANGE when VX is 16 or more (R122). -/
def execSkp (x : Reg) (s : State) : Host.Outcome State Fault Refusal :=
  conclude (.skp x) s ((keyOf (s.getV x)).map fun k => s.enter.skipIf (s.pressed k))

/-- EXA1 (R124): skip if the key named by VX is not pressed; KEY_RANGE when VX is 16 or more (R122). -/
def execSknp (x : Reg) (s : State) : Host.Outcome State Fault Refusal :=
  conclude (.sknp x) s ((keyOf (s.getV x)).map fun k => s.enter.skipIf (!s.pressed k))

/-- FX07 (R125). -/
def execLdVxDt (x : Reg) (s : State) : Host.Outcome State Fault Refusal :=
  .next (s.enter.setV x s.dt)

/-- FX15 (R126). -/
def execLdDtVx (x : Reg) (s : State) : Host.Outcome State Fault Refusal :=
  .next (s.enter.setDt (s.getV x))

/-- FX18 (R127). -/
def execLdStVx (x : Reg) (s : State) : Host.Outcome State Fault Refusal :=
  .next (s.enter.setSt (s.getV x))

/-- FX0A (R128, R129): the wait for a press and release, one transition of {Idle, KeyCaptured(k)} per call. -/
def execLdVxK (x : Reg) (s : State) : Host.Outcome State Fault Refusal :=
  match s.keyWait with
  | .idle =>
    match s.leastPressed with
    | none => .next s.enter.rewind
    | some k => .next (s.enter.rewind.setKeyWait (.keyCaptured k))
  | .keyCaptured k =>
    if s.pressed k then .next s.enter.rewind
    else .next ((s.enter.setV x (keyByte k)).setKeyWait .idle)

end Sys2Proof.Machine
end

