-- ==== Sys2Proof/Machine/Frame.lean ====
section
/-! DEFINITION. The frame sequencer around the executor call (40_execution_cycle.md R78 to R84), the timer ticker
(60_exceptions.md R144) and the host's actions between frames (60_exceptions.md R146 to R151). -/

namespace Sys2Proof.Machine

/-- The batch limit, `ipf(s)` (10_state.md R33, 40_execution_cycle.md R80). -/
def State.ipf (s : State) : Nat := if s.debugEnabled then 1 else s.config.ipfNominal

/-- A timer one step towards zero, holding at 0 (R144). -/
def decToZero (b : Byte) : Byte := if b.toNat > 0 then b - 1 else b

/-- `tick(s)` (R144): both timers, independently. -/
def State.tick (s : State) : State := { s with dt := decToZero s.dt, st := decToZero s.st }

/-- The tone output (R149): ST > 0. -/
def State.tone (s : State) : Bool := decide (s.st.toNat > 0)

/-- An event sent to the host (R136, R148, R149). -/
def State.emit (s : State) (e : Event) : State := { s with events := e :: s.events }

/-- The diagnostic of the last call, if any, sent to the host (R78, R136). -/
def State.emitDiag (s : State) : State :=
  match s.call.diag with
  | some d => s.emit (.diagnostic d)
  | none => s

/-- The pause toggle (R150, D24): Running and Paused change places, Halted stays. -/
def RunState.toggled : RunState → RunState
  | .running => .paused
  | .paused => .running
  | .halted => .halted

/-- One action of the host (R146, R147, R150, R151). A keypad action changes the host's own vector; the core reads it at the start
of the frame. -/
def State.applyAction (s : State) : HostAction → State
  | .load image => if imageFits image then s.init image else s.emit (.romTooLarge 3584 image.length)
  | .keypad vector => { s with hostKeys := vector }
  | .quit => { s with runState := .halted }
  | .pauseToggle => { s with runState := s.runState.toggled }
  | .resetMachine => s.init s.image
  | .debugToggle => { s with debugEnabled := !s.debugEnabled }
  | .selectMode m => { s with mode := m }

/-- The actions of one gap between frames, in order. -/
def State.applyActions (s : State) : List HostAction → State
  | [] => s
  | a :: as => (s.applyAction a).applyActions as

/-- The core copies the host's keypad vector into the latches (60_exceptions.md R147). -/
def State.readKeypad (s : State) : State := { s with keypad := s.hostKeys }

/-- The host's turn before a frame (40 R83): the actions listed for it are taken from the inputs and applied. -/
def State.hostTurn (s : State) : State :=
  match s.inputs with
  | [] => s
  | now :: later => { s with inputs := later }.applyActions now

/-- The start of a frame, when the sequencer stands between two frames (batch = 0): the host's turn, then the keypad is read, after
a reset or a load too (70_reset_and_hazards.md R158). Inside a frame the host does nothing (R83). -/
def State.openFrame (s : State) : State := if s.batch = 0 then s.hostTurn.readKeypad else s

/-- Whether the sequencer makes an executor call now (R78, R79, R80). -/
def State.callDue (s : State) : Bool := decide (s.runState = .running) && decide (s.batch < s.ipf)

/-- Whether this frame's timers tick: not after a fault, not in a frame that is not Running (R79, R82, D13). -/
def State.ticks (s : State) : Bool := decide (s.fault = none) && decide (s.runState = .running)

/-- The end of a frame (R78, R82): flush the framebuffer, tick, emit the tone after the tick. -/
def State.closeFrame (s : State) : State :=
  let flushed := s.emit (.framebuffer s.display)
  let ticked := if s.ticks then flushed.tick else flushed
  { ticked.emit (.tone ticked.tone) with batch := 0 }

/-- What follows a call inside the loop (R78): its diagnostic is emitted and the call counted. -/
def State.countCall (s : State) : State := { s.emitDiag with batch := s.batch + 1 }

/-- Whether a call that has been counted ends the batch (R81): a fault, a redraw, or the limit. -/
def State.batchEnds (s : State) : Bool := s.fault.isSome || s.call.redraw || decide (s.ipf ≤ s.batch)

/-- The sequencer after a call: count it, and close the frame if it ended the batch. -/
def State.afterCall (s : State) : State := if s.countCall.batchEnds then s.countCall.closeFrame else s.countCall

end Sys2Proof.Machine
end

