-- ==== Sys2Proof/Machine/Call.lean ====
section
/-! DEFINITION. The executor call (40_execution_cycle.md R70 to R77), one turn of the frame sequencer's loop and the frame
procedure of R78. -/

namespace Sys2Proof.Machine

/-- The executor call on the word fetched: the instruction it decodes to, or the unrecognized opcode (R73, R76). -/
def execWord (w : Word) (s : State) : Host.Outcome State Fault Refusal :=
  match decode w with
  | .ok i => exec i s
  | .error _ => execUnrecognized w s

/-- The executor call (R70): fetch, PC advance, decode, dispatch; a fetch fault is taken with no word (R71). -/
def executorCall (s : State) : Host.Outcome State Fault Refusal :=
  match s.fetch with
  | .error r => .next (s.takeFault none r)
  | .ok w => execWord w s

/-- A change of state after an outcome that is a next state. -/
def andThen (o : Host.Outcome State Fault Refusal) (f : State → State) : Host.Outcome State Fault Refusal :=
  match o with
  | .next t => .next (f t)
  | .fault r => .fault r
  | .refused r => .refused r

/-- One turn of the frame sequencer (R78; log 7). Between frames the host acts first. Then, if the core is Running and the batch
has calls left, one executor call, after which the frame closes if that call ended the batch; otherwise the frame closes. -/
def State.turn (s : State) : Host.Outcome State Fault Refusal :=
  let s1 := s.openFrame
  if s1.callDue then andThen (executorCall s1) State.afterCall else .next s1.closeFrame

/-- The `while` loop of R78 with `fuel` calls left. -/
def batchLoop : Nat → State → Host.Outcome State Fault Refusal
  | 0, s => .next s
  | fuel + 1, s =>
    match executorCall s with
    | .next t => if t.fault.isSome || t.call.redraw then .next t.countCall else batchLoop fuel t.countCall
    | .fault r => .fault r
    | .refused r => .refused r

/-- The frame procedure as R78 writes it, from a state in which the host has had its turn. -/
def frame (s : State) : Host.Outcome State Fault Refusal :=
  if s.runState = .running then andThen (batchLoop s.ipf s) State.closeFrame else .next s.closeFrame

/-- The two bytes of a word stored at `a` and `a + 1`, high byte first (20_memory.md R48). -/
def State.placeWord (s : State) (a : Nat) (w : Word) : State := (s.setByte a (highByte w)).setByte (a + 1) (lowByte w)

end Sys2Proof.Machine
end

