-- ==== Sys2Proof/Machine/Step.lean ====
section
/-! DEFINITION. The step of the model and the host's way to place one instruction. -/

namespace Sys2Proof.Machine

/-- One step: one turn of the frame sequencer's loop (40_execution_cycle.md R78; log 7). -/
def step (s : State) : Host.Outcome State Fault Refusal := s.turn

/-- `s` with the host's instruction word where the next step fetches it: its two bytes at PC, high byte first (20_memory.md R48).
What a fetch needs is set where `s` lacks it: a PC that leaves room for two bytes, a Running core with no fault latched, calls
left in the batch, and no host action before the call (log 12). -/
def State.withFetchWord (s : State) (nbits w : Nat) : State :=
  let a : Word := if s.pc.toNat + 1 < 4096 then s.pc else 0x200
  let n := if s.batch < s.ipf then s.batch else 0
  let t := { s with
    pc := a
    runState := .running
    fault := none
    batch := n
    inputs := if n = 0 then [] else s.inputs }
  t.placeWord a.toNat (tableWord nbits w)

end Sys2Proof.Machine
end

