-- ==== Sys2Proof/Safety.lean ====
section
/-! DEFINITION. The terms claims use: what each instruction may write, the invariant of a run, a parked state and the end of a run
(70_reset_and_hazards.md R169), and the picture of a sprite. Nothing here is part of the machine. -/

namespace Sys2Proof.Machine

/-! ### What an instruction may write -/

/-- The V registers an instruction may write: its destination registers and VF where its rule writes the flag (10_state.md R20, R21). -/
def destRegs : Instr → List Reg
  | .ldVxNn x _ | .addVxNn x _ | .ldVxVy x _ | .rnd x _ | .ldVxDt x | .ldVxK x => [x]
  | .orVxVy x _ | .andVxVy x _ | .xorVxVy x _ | .addVxVy x _ | .sub x _ | .shr x _ | .subn x _ | .shl x _ => [x, vf]
  | .drw _ _ _ => [vf]
  | .ldVxMem x => blockTo x
  | .cls | .ret | .jp _ | .call _ | .seVxNn _ _ | .sneVxNn _ _ | .seVxVy _ _ | .sneVxVy _ _ | .ldINnn _ | .jpV0 _
  | .skp _ | .sknp _ | .ldDtVx _ | .ldStVx _ | .addIVx _ | .ldFVx _ | .ldBVx _ | .ldMemVx _ => []

/-- The bytes an instruction stores: how many, from the address EA = I (43_index_memory.md R114, R115). No other instruction
stores (20_memory.md R44). -/
def storeLength : Instr → Nat
  | .ldBVx _ => 3
  | .ldMemVx x => x.val + 1
  | .cls | .ret | .jp _ | .call _ | .seVxNn _ _ | .sneVxNn _ _ | .seVxVy _ _ | .sneVxVy _ _ | .ldVxNn _ _ | .addVxNn _ _
  | .ldVxVy _ _ | .orVxVy _ _ | .andVxVy _ _ | .xorVxVy _ _ | .addVxVy _ _ | .sub _ _ | .shr _ _ | .subn _ _ | .shl _ _
  | .ldINnn _ | .jpV0 _ | .rnd _ _ | .drw _ _ _ | .skp _ | .sknp _ | .ldVxDt _ | .ldVxK _ | .ldDtVx _ | .ldStVx _
  | .addIVx _ | .ldFVx _ | .ldVxMem _ => 0

/-- The instructions that write I (10_state.md R26). -/
def writesI : Instr → Bool
  | .ldINnn _ | .addIVx _ | .ldFVx _ | .ldMemVx _ | .ldVxMem _ => true
  | .cls | .ret | .jp _ | .call _ | .seVxNn _ _ | .sneVxNn _ _ | .seVxVy _ _ | .sneVxVy _ _ | .ldVxNn _ _ | .addVxNn _ _
  | .ldVxVy _ _ | .orVxVy _ _ | .andVxVy _ _ | .xorVxVy _ _ | .addVxVy _ _ | .sub _ _ | .shr _ _ | .subn _ _ | .shl _ _
  | .jpV0 _ | .rnd _ _ | .drw _ _ _ | .skp _ | .sknp _ | .ldVxDt _ | .ldVxK _ | .ldDtVx _ | .ldStVx _ | .ldBVx _ => false

/-- The two instructions that request a redraw (40_execution_cycle.md R74). -/
def isDisplay : Instr → Bool
  | .cls | .drw _ _ _ => true
  | .ret | .jp _ | .call _ | .seVxNn _ _ | .sneVxNn _ _ | .seVxVy _ _ | .sneVxVy _ _ | .ldVxNn _ _ | .addVxNn _ _
  | .ldVxVy _ _ | .orVxVy _ _ | .andVxVy _ _ | .xorVxVy _ _ | .addVxVy _ _ | .sub _ _ | .shr _ _ | .subn _ _ | .shl _ _
  | .ldINnn _ | .jpV0 _ | .rnd _ _ | .skp _ | .sknp _ | .ldVxDt _ | .ldVxK _ | .ldDtVx _ | .ldStVx _ | .addIVx _ | .ldFVx _
  | .ldBVx _ | .ldMemVx _ | .ldVxMem _ => false

/-- The fault an instruction can raise, if it can raise one at all (60_exceptions.md R138). -/
def faultOf : Instr → Option FaultKind
  | .drw _ _ _ | .ldBVx _ | .ldMemVx _ | .ldVxMem _ => some .memRange
  | .skp _ | .sknp _ => some .keyRange
  | .cls | .ret | .jp _ | .call _ | .seVxNn _ _ | .sneVxNn _ _ | .seVxVy _ _ | .sneVxVy _ _ | .ldVxNn _ _ | .addVxNn _ _
  | .ldVxVy _ _ | .orVxVy _ _ | .andVxVy _ _ | .xorVxVy _ _ | .addVxVy _ _ | .sub _ _ | .shr _ _ | .subn _ _ | .shl _ _
  | .ldINnn _ | .jpV0 _ | .rnd _ _ | .ldVxDt _ | .ldVxK _ | .ldDtVx _ | .ldStVx _ | .addIVx _ | .ldFVx _ => none

/-! ### The picture of a sprite (44_display.md R118 to R120) -/

/-- Whether pixel (px, py) is under a 1 bit of the sprite of `rows` rows whose bytes `byte` gives from address `a` on and whose
origin is column x0 of row y0: bit 7 of a byte is its leftmost pixel, bit 0 its rightmost. Nothing wraps: a pixel left of or above the origin is never covered (R119). -/
def spriteCovers (byte : Nat → Byte) (a x0 y0 rows : Nat) (px : Fin 64) (py : Fin 32) : Bool :=
  decide (y0 ≤ py.val) && decide (py.val - y0 < rows) && decide (x0 ≤ px.val) && decide (px.val - x0 < 8)
    && (byte (a + (py.val - y0))).getLsbD (7 - (px.val - x0))

/-- How many of `rows` sprite rows are above the bottom edge (R119). -/
def visibleRows (y0 rows : Nat) : Nat := min rows (32 - y0)

/-! ### Runs -/

/-- The invariant of a run: memory is canonical and inside the address space, a latched fault means Halted (10_state.md R39), only a
Running core is inside a frame and it has calls left (40 R78, R80), and the image kept for a reset is loadable (70 R156). -/
abbrev State.Inv (s : State) : Prop :=
  Memory.wf s.config.font s.memory = true ∧
  (s.fault ≠ none → s.runState = .halted) ∧
  (s.batch ≠ 0 → s.runState = .running ∧ s.batch < s.ipf) ∧
  imageFits s.image = true

/-- `k` steps, stopping at the first that is not a next state: the host's `core.run` in the model's own types. -/
def runSteps : Nat → State → Host.Outcome State Fault Refusal
  | 0, s => .next s
  | k + 1, s =>
    match step s with
    | .next t => runSteps k t
    | .fault r => .fault r
    | .refused r => .refused r

/-- The word at PC, when it can be fetched (R71). -/
def State.wordAtPc (s : State) : Option Word :=
  match s.fetch with
  | .ok w => some w
  | .error _ => none

/-- A parked state (70_reset_and_hazards.md R169(a), D26): Running, no fault, key_wait Idle, and the word at PC is 0x1NNN with
NNN = PC. -/
abbrev State.Parked (s : State) : Prop :=
  s.runState = .running ∧ s.fault = none ∧ s.keyWait = .idle ∧
  ∃ nnn : BitVec 12, zext16 nnn = s.pc ∧ s.wordAtPc = some (encode (.jp nnn))

/-- A faulted state: a failed run (R169(b)). -/
abbrev State.Faulted (s : State) : Prop := s.fault ≠ none

/-- Whether an event is a diagnostic. -/
def Event.isDiagnostic : Event → Bool
  | .diagnostic _ => true
  | .framebuffer _ | .tone _ | .romTooLarge _ _ => false

/-- No diagnostic was emitted in the run that led here (60_exceptions.md R136). -/
def State.noDiagnostic (s : State) : Bool := s.events.all fun e => !e.isDiagnostic

/-- "The program ends well" (R169): parked, no fault latched and no diagnostic emitted. -/
abbrev State.EndsWell (s : State) : Prop := s.Parked ∧ s.fault = none ∧ s.noDiagnostic = true

/-- Whether an action of the host replaces the Machine State (70 R155, R156). -/
def HostAction.replaces : HostAction → Bool
  | .load _ | .resetMachine => true
  | .keypad _ | .quit | .pauseToggle | .debugToggle | .selectMode _ => false

end Sys2Proof.Machine
end

