-- ==== Sys2Proof/Certificates/Slice0/Obligations.lean ====
section
/-! DEFINITION. The statements for the provers, each a numbered rule of spec/ or a property of the whole machine. A clause that rests
on a decision of the spec (92_eei_decisions.md D<n>) or of this model (log <n>) says so in its docstring. -/

open Sys2Proof Sys2Proof.Machine

/-! ### Vocabulary -/

/-- A next state that differs from `s` in the V registers only, PC past the instruction and no output of the call. -/
def Sys2Proof.Machine.WritesOnlyV (s t : State) : Prop :=
  t = { s with v := t.v, pc := s.pc + 2, call := CallOutput.none }

/-- The instruction completes with `result` in VX alone. -/
def Sys2Proof.Machine.CompletesInto (i : Instr) (s : State) (x : Reg) (result : Nat) : Prop :=
  ∃ t, exec i s = .next t ∧ (t.getV x).toNat = result ∧ (∀ r, r ≠ x → t.getV r = s.getV r) ∧ WritesOnlyV s t

/-- The instruction completes with `result` in VX and then `flag` in VF, so that with X = 0xF the flag is what VF holds. -/
def Sys2Proof.Machine.CompletesWithFlag (i : Instr) (s : State) (x : Reg) (result flag : Nat) : Prop :=
  ∃ t, exec i s = .next t ∧ (t.getV vf).toNat = flag ∧ (x ≠ vf → (t.getV x).toNat = result) ∧
    (∀ r, r ≠ x → r ≠ vf → t.getV r = s.getV r) ∧ WritesOnlyV s t

/-- The instruction ends in fault entry (60_exceptions.md R139, D3): the state before it, the fault latched, the core Halted. -/
def Sys2Proof.Machine.TakesFault (i : Instr) (s : State) (kind : FaultKind) (addr : Nat) : Prop :=
  exec i s = .next { s with
    fault := some { kind := kind, pc := s.pc, word := some (encode i), addr := addr }
    runState := .halted
    call := { redraw := false, diag := none } }

/-- The picture of DXYN in a state: origin from VX and VY, bytes from I (44_display.md R118). -/
def Sys2Proof.Machine.State.picture (s : State) (x y : Reg) (n : BitVec 4) : Fin 64 → Fin 32 → Bool :=
  spriteCovers s.byteAt s.i.toNat ((s.getV x).toNat % 64) ((s.getV y).toNat % 32) n.toNat

/-- How many rows of DXYN are visible (R119). -/
def Sys2Proof.Machine.State.rowsShown (s : State) (y : Reg) (n : BitVec 4) : Nat :=
  visibleRows ((s.getV y).toNat % 32) n.toNat

/-- What a byte of memory reads as, as a number, once `values` are stored from address I on. -/
def Sys2Proof.Machine.State.overwritten (s : State) (values : List Nat) (a : Nat) : Nat :=
  if s.i.toNat ≤ a then values.getD (a - s.i.toNat) (s.byteAt a).toNat else (s.byteAt a).toNat

/-- The decimal digits of VX (43_index_memory.md R114). -/
def Sys2Proof.Machine.State.digitsOf (s : State) (x : Reg) : List Nat :=
  [(s.getV x).toNat / 100, (s.getV x).toNat / 10 % 10, (s.getV x).toNat % 10]

/-- The values of V0 to VX (43_index_memory.md R115). -/
def Sys2Proof.Machine.State.blockOf (s : State) (x : Reg) : List Nat :=
  ((List.finRange 16).take (x.val + 1)).map fun k => (s.getV k).toNat

/-- The diagnostic that R75 gives a call on the word `w`. -/
def Sys2Proof.Machine.State.expectedDiag (s : State) (w : Word) : Option Diag :=
  match decode w with
  | .ok .ret => if s.sp.val = 0 then some { kind := .stackUnderflow, pc := s.pc, word := w } else none
  | .ok (.call _) => if s.sp.val = 16 then some { kind := .stackOverflow, pc := s.pc, word := w } else none
  | .ok _ => none
  | .error _ => some { kind := .unrecognizedOpcode, pc := s.pc, word := w }

/-! ### Encoding -/

/-- O1. Decoding the word of an instruction gives the instruction back, every operand at every value (30_encoding.md R61, R63). -/
def Obligations.DecodeEncodeRoundTrip : Prop :=
  ∀ i : Instr, i.wellFormed = true → decode (encode i) = .ok i

/-- O2. A word that decodes is the word of the instruction it decodes to: each instruction has one word. -/
def Obligations.EncodeDecodeRoundTrip : Prop :=
  ∀ (w : Word) (i : Instr), decode w = .ok i → encode i = w

/-- O3. The decoder is the opcode table (30_encoding.md R64, R69; exact decoding is D9): a word decodes to an instruction of a row
exactly when it matches the row, no word matches two rows, and a word that matches none is rejected. -/
def Obligations.DecoderIsTheTable : Prop :=
  ∀ w : Word,
    (∀ i, decode w = .ok i → i.row ∈ opTable ∧ i.row.matches w = true) ∧
    (∀ r ∈ opTable, r.matches w = true → ∃ i, decode w = .ok i ∧ i.row = r) ∧
    (∀ r ∈ opTable, ∀ q ∈ opTable, r.matches w = true → q.matches w = true → r = q) ∧
    ((∀ r ∈ opTable, r.matches w = false) → decode w = .error (.unrecognized w))

/-- O4. The fields of a word (30_encoding.md R61), in the document's own masks and shifts. -/
def Obligations.FieldsAreMasksAndShifts : Prop :=
  ∀ w : Word,
    (fieldsOf w).cls.toNat * 0x1000 = w.toNat &&& 0xF000 ∧
    (fieldsOf w).nnn.toNat = w.toNat &&& 0x0FFF ∧
    (fieldsOf w).nn.toNat = w.toNat &&& 0x00FF ∧
    (fieldsOf w).n.toNat = w.toNat &&& 0x000F ∧
    (fieldsOf w).x.val = (w.toNat >>> 8) &&& 0x0F ∧
    (fieldsOf w).y.val = (w.toNat >>> 4) &&& 0x0F

/-- O5. Words written out from the opcode map (30_encoding.md R63), at least one of each class, and two words outside it (R64). -/
def Obligations.SampleWordsDecode : Prop :=
  decode 0x00E0 = .ok .cls ∧ decode 0x00EE = .ok .ret ∧ decode 0x1234 = .ok (.jp 0x234) ∧
  decode 0x2210 = .ok (.call 0x210) ∧ decode 0x332A = .ok (.seVxNn 3 0x2A) ∧ decode 0x432A = .ok (.sneVxNn 3 0x2A) ∧
  decode 0x5120 = .ok (.seVxVy 1 2) ∧ decode 0x6005 = .ok (.ldVxNn 0 0x05) ∧ decode 0x7103 = .ok (.addVxNn 1 0x03) ∧
  decode 0x8014 = .ok (.addVxVy 0 1) ∧ decode 0x812E = .ok (.shl 1 2) ∧ decode 0x9120 = .ok (.sneVxVy 1 2) ∧
  decode 0xA300 = .ok (.ldINnn 0x300) ∧ decode 0xB300 = .ok (.jpV0 0x300) ∧ decode 0xC30F = .ok (.rnd 3 0x0F) ∧
  decode 0xD125 = .ok (.drw 1 2 5) ∧ decode 0xE19E = .ok (.skp 1) ∧ decode 0xF30A = .ok (.ldVxK 3) ∧
  decode 0x5AB1 = .error (.unrecognized 0x5AB1) ∧ decode 0x0000 = .error (.unrecognized 0x0000)

/-! ### The executor call -/

/-- O6. A step runs the decoded instruction (40_execution_cycle.md R70, R73, R78; a step is one turn of the loop, log 7): between frames the host acts first; then, when a
call is due and the two bytes at PC decode to `i`, the step is `exec i`, followed by the sequencer's `afterCall`. Inside a frame the
state the call sees is `s` itself; between frames, where the host does nothing, it is `s` with the keypad read (60_exceptions.md R147;
O58 says what the host's listed actions do). -/
def Obligations.StepRunsDecodedInstruction : Prop :=
  (∀ (s : State) (i : Instr), s.openFrame.callDue = true → s.openFrame.pc.toNat + 1 < 4096 →
    decode (wordOfBytes (s.openFrame.byteAt s.openFrame.pc.toNat) (s.openFrame.byteAt (s.openFrame.pc.toNat + 1))) = .ok i →
    step s = andThen (exec i s.openFrame) State.afterCall) ∧
  (∀ s : State, s.batch ≠ 0 → s.openFrame = s) ∧
  (∀ s : State, s.batch = 0 → s.inputs = [] → s.openFrame = { s with keypad := s.hostKeys })

/-- O7. An unrecognized word (40_execution_cycle.md R76): PC past it, a diagnostic that carries the word, nothing else; the batch goes
on after it unless the limit ends it. That a diagnostic does not end the batch is R81's decision D17 (log 17); the batch count is the
model's own (log 7). -/
def Obligations.UnrecognizedOpcodeAdvances : Prop :=
  ∀ (s : State) (w : Word), s.fetch = .ok w → (∀ r ∈ opTable, r.matches w = false) →
    ∃ d : Diag, d.kind = .unrecognizedOpcode ∧ d.word = w ∧
      executorCall s = .next { s with pc := s.pc + 2, call := { redraw := false, diag := some d } } ∧
      (s.fault = none → s.batch + 1 < s.ipf → ∃ t, executorCall s = .next t ∧ t.afterCall.batch = s.batch + 1)

/-- O8. A fetch that reaches address 4096 (40_execution_cycle.md R71, 60_exceptions.md R139; D2, D3): the core halts with the fault
record, no word in it, the first out-of-range address as addr, and nothing else changed. -/
def Obligations.FetchOutOfRangeHalts : Prop :=
  ∀ s : State, 4096 ≤ s.pc.toNat + 1 →
    executorCall s = .next { s with
      fault := some { kind := .memRange, pc := s.pc, word := none, addr := if s.pc.toNat = 4095 then 4096 else s.pc.toNat }
      runState := .halted
      call := { redraw := false, diag := none } }

/-- O9. The redraw output (40_execution_cycle.md R74): true after 00E0 and DXYN, false after every other instruction, an unrecognized
opcode included. (The state is Running before the call and after it: the call did not fault.) -/
def Obligations.RedrawOutput : Prop :=
  ∀ (s t : State) (w : Word), s.fetch = .ok w → executorCall s = .next t → s.runState = .running → t.runState = .running →
    (t.call.redraw = true ↔ ∃ i, decode w = .ok i ∧ isDisplay i = true)

/-- O10. The diagnostic output (40_execution_cycle.md R75; the record is D17, its two stack cases are D4 and D5): StackUnderflow after 00EE with an empty stack, StackOverflow after 2NNN
with a full one, UnrecognizedOpcode after an unrecognized word, none otherwise. -/
def Obligations.DiagnosticOutput : Prop :=
  ∀ (s t : State) (w : Word), s.fetch = .ok w → executorCall s = .next t → t.call.diag = s.expectedDiag w

/-! ### Control flow -/

/-- O11. 1NNN (41_control_flow.md R89). -/
def Obligations.JumpSetsPc : Prop :=
  ∀ (nnn : BitVec 12) (s : State), ∃ t, exec (.jp nnn) s = .next t ∧ t.pc.toNat = nnn.toNat ∧
    t = { s with pc := t.pc, call := { redraw := false, diag := none } }

/-- O12. 2NNN (41_control_flow.md R90): below 16 entries the address after the call is pushed and PC is NNN; on a full stack only PC
advances and StackOverflow is reported (D4). -/
def Obligations.CallPushesReturnAddress : Prop :=
  ∀ (nnn : BitVec 12) (s : State),
    (s.sp.val < 16 → ∃ t, exec (.call nnn) s = .next t ∧ t.pc.toNat = nnn.toNat ∧ t.sp.val = s.sp.val + 1 ∧
      t.stack[s.sp.val]? = some (s.pc + 2) ∧ (∀ j, j ≠ s.sp.val → t.stack[j]? = s.stack[j]?) ∧
      t = { s with pc := t.pc, sp := t.sp, stack := t.stack, call := { redraw := false, diag := none } }) ∧
    (s.sp.val = 16 → exec (.call nnn) s = .next { s with
      pc := s.pc + 2
      call := { redraw := false, diag := some { kind := .stackOverflow, pc := s.pc, word := encode (.call nnn) } } })

/-- O13. 00EE (41_control_flow.md R88): PC is the top entry, SP one less, the stack array unchanged (D29); on an empty stack only PC
advances and StackUnderflow is reported (D5). -/
def Obligations.ReturnPopsAddress : Prop :=
  ∀ s : State,
    (s.sp.val ≠ 0 → ∃ t, exec .ret s = .next t ∧ s.stack[s.sp.val - 1]? = some t.pc ∧ t.sp.val = s.sp.val - 1 ∧
      t = { s with pc := t.pc, sp := t.sp, call := { redraw := false, diag := none } }) ∧
    (s.sp.val = 0 → exec .ret s = .next { s with
      pc := s.pc + 2
      call := { redraw := false, diag := some { kind := .stackUnderflow, pc := s.pc, word := 0x00EE } } })

/-- O14. 00EE after 2NNN returns PC to the instruction immediately after the call (95_test_vectors.md S6), with SP and the entries
below it as before the call. -/
def Obligations.CallThenReturn : Prop :=
  ∀ (nnn : BitVec 12) (s : State), s.sp.val < 16 →
    ∃ t u, exec (.call nnn) s = .next t ∧ exec .ret t = .next u ∧ u.pc = s.pc + 2 ∧ u.sp = s.sp ∧
      (∀ j, j ≠ s.sp.val → u.stack[j]? = s.stack[j]?) ∧
      u = { s with pc := s.pc + 2, stack := u.stack, call := { redraw := false, diag := none } }

/-- O15. 3XNN and 4XNN (41_control_flow.md R91, R92): the next instruction is skipped exactly when VX equals, or differs from, NN. -/
def Obligations.SkipsOnByte : Prop :=
  ∀ (x : Reg) (nn : BitVec 8) (s : State),
    exec (.seVxNn x nn) s = .next { s with
      pc := if s.getV x = nn then s.pc + 4 else s.pc + 2, call := { redraw := false, diag := none } } ∧
    exec (.sneVxNn x nn) s = .next { s with
      pc := if s.getV x = nn then s.pc + 2 else s.pc + 4, call := { redraw := false, diag := none } }

/-- O16. 5XY0 and 9XY0 (41_control_flow.md R93, R94). -/
def Obligations.SkipsOnRegister : Prop :=
  ∀ (x y : Reg) (s : State),
    exec (.seVxVy x y) s = .next { s with
      pc := if s.getV x = s.getV y then s.pc + 4 else s.pc + 2, call := { redraw := false, diag := none } } ∧
    exec (.sneVxVy x y) s = .next { s with
      pc := if s.getV x = s.getV y then s.pc + 2 else s.pc + 4, call := { redraw := false, diag := none } }

/-- O17. BNNN (41_control_flow.md R95): PC is V0 + NNN, neither wrapped nor masked (D7). -/
def Obligations.JumpWithOffset : Prop :=
  ∀ (nnn : BitVec 12) (s : State), ∃ t, exec (.jpV0 nnn) s = .next t ∧ t.pc.toNat = (s.getV 0).toNat + nnn.toNat ∧
    t = { s with pc := t.pc, call := { redraw := false, diag := none } }

/-! ### Registers, arithmetic and flags -/

/-- O18. 6XNN, 7XNN, 8XY0 and FX07 (42_register_alu.md R98 to R100, 45_keypad_timers.md R125): the value in VX, no flag, nothing else. -/
def Obligations.RegisterLoads : Prop :=
  ∀ (x y : Reg) (nn : BitVec 8) (s : State),
    CompletesInto (.ldVxNn x nn) s x nn.toNat ∧
    CompletesInto (.addVxNn x nn) s x (((s.getV x).toNat + nn.toNat) % 256) ∧
    CompletesInto (.ldVxVy x y) s x (s.getV y).toNat ∧
    CompletesInto (.ldVxDt x) s x s.dt.toNat

/-- O19. 8XY1, 8XY2, 8XY3 (42_register_alu.md R101 to R103): the bitwise result in VX, then VF = 0, also when X = 0xF. -/
def Obligations.LogicClearsFlag : Prop :=
  ∀ (x y : Reg) (s : State),
    CompletesWithFlag (.orVxVy x y) s x ((s.getV x).toNat ||| (s.getV y).toNat) 0 ∧
    CompletesWithFlag (.andVxVy x y) s x ((s.getV x).toNat &&& (s.getV y).toNat) 0 ∧
    CompletesWithFlag (.xorVxVy x y) s x ((s.getV x).toNat ^^^ (s.getV y).toNat) 0

/-- O20. 8XY4 (42_register_alu.md R104): the sum modulo 256, then VF = 1 exactly when the exact sum of the original operands
exceeds 255. -/
def Obligations.AddSetsCarry : Prop :=
  ∀ (x y : Reg) (s : State),
    CompletesWithFlag (.addVxVy x y) s x (((s.getV x).toNat + (s.getV y).toNat) % 256)
      (if (s.getV x).toNat + (s.getV y).toNat > 255 then 1 else 0)

/-- O21. 8XY5 (42_register_alu.md R105): VX - VY modulo 256, then VF = 1 exactly when VY <= VX before the subtraction. -/
def Obligations.SubSetsNoBorrow : Prop :=
  ∀ (x y : Reg) (s : State),
    CompletesWithFlag (.sub x y) s x (((s.getV x).toNat + 256 - (s.getV y).toNat) % 256)
      (if (s.getV y).toNat ≤ (s.getV x).toNat then 1 else 0)

/-- O22. 8XY7 (42_register_alu.md R107): VY - VX modulo 256, then VF = 1 exactly when VX <= VY, original values. -/
def Obligations.SubnSetsNoBorrow : Prop :=
  ∀ (x y : Reg) (s : State),
    CompletesWithFlag (.subn x y) s x (((s.getV y).toNat + 256 - (s.getV x).toNat) % 256)
      (if (s.getV x).toNat ≤ (s.getV y).toNat then 1 else 0)

/-- O23. 8XY6 (42_register_alu.md R106, 70_reset_and_hazards.md R163; the order of the two writes is D6): VF first, the shift of VY
second, VY read again. -/
def Obligations.ShiftRightByCase : Prop :=
  ∀ (x y : Reg) (s : State), ∃ t, exec (.shr x y) s = .next t ∧ WritesOnlyV s t ∧
    (∀ r, r ≠ x → r ≠ vf → t.getV r = s.getV r) ∧
    (if y = vf then
      (if x = vf then (t.getV vf).toNat = 0
       else (t.getV x).toNat = 0 ∧ (t.getV vf).toNat = (s.getV vf).toNat % 2)
     else
      (if x = vf then (t.getV vf).toNat = (s.getV y).toNat / 2
       else (t.getV x).toNat = (s.getV y).toNat / 2 ∧ (t.getV vf).toNat = (s.getV y).toNat % 2))

/-- O24. 8XYE (42_register_alu.md R108, 70_reset_and_hazards.md R163; the order of the two writes is D6). -/
def Obligations.ShiftLeftByCase : Prop :=
  ∀ (x y : Reg) (s : State), ∃ t, exec (.shl x y) s = .next t ∧ WritesOnlyV s t ∧
    (∀ r, r ≠ x → r ≠ vf → t.getV r = s.getV r) ∧
    (if y = vf then
      (if x = vf then (t.getV vf).toNat = 2 * ((s.getV vf).toNat / 128)
       else (t.getV x).toNat = 2 * ((s.getV vf).toNat / 128) ∧ (t.getV vf).toNat = (s.getV vf).toNat / 128)
     else
      (if x = vf then (t.getV vf).toNat = 2 * (s.getV y).toNat % 256
       else (t.getV x).toNat = 2 * (s.getV y).toNat % 256 ∧ (t.getV vf).toNat = (s.getV y).toNat / 128))

/-- O25. CXNN (42_register_alu.md R109, D16): VX is the byte of this draw AND NN, whatever byte that is (the free value of log 1), so
no bit outside NN is set; the next draw is another one; no flag. -/
def Obligations.RandomIsMasked : Prop :=
  ∀ (x : Reg) (nn : BitVec 8) (s : State), ∃ t, exec (.rnd x nn) s = .next t ∧
    t.getV x = Config.randomByte s.draws &&& nn ∧ t.getV x &&& ~~~ nn = 0 ∧ (∀ r, r ≠ x → t.getV r = s.getV r) ∧
    t = { s with v := t.v, pc := s.pc + 2, draws := s.draws + 1, call := { redraw := false, diag := none } }

/-! ### Index register and memory -/

/-- O26. ANNN, FX1E, FX29 (43_index_memory.md R111, R112, R113): the value of I and nothing else; VF keeps its value. -/
def Obligations.IndexLoads : Prop :=
  ∀ (nnn : BitVec 12) (x : Reg) (s : State),
    (∃ t, exec (.ldINnn nnn) s = .next t ∧ t.i.toNat = nnn.toNat ∧
      t = { s with i := t.i, pc := s.pc + 2, call := { redraw := false, diag := none } }) ∧
    (∃ t, exec (.addIVx x) s = .next t ∧ t.i.toNat = (s.i.toNat + (s.getV x).toNat) % 65536 ∧
      t = { s with i := t.i, pc := s.pc + 2, call := { redraw := false, diag := none } }) ∧
    (∃ t, exec (.ldFVx x) s = .next t ∧ t.i.toNat = (s.getV x).toNat * 5 ∧
      t = { s with i := t.i, pc := s.pc + 2, call := { redraw := false, diag := none } })

/-- O27. FX33 in range (43_index_memory.md R114): the three decimal digits at I, I + 1, I + 2, every other byte and I unchanged. The
canonical form of memory is the invariant of O52. -/
def Obligations.DecimalDigitsStored : Prop :=
  ∀ (x : Reg) (s : State), s.i.toNat + 2 < 4096 → Memory.wf s.config.font s.memory = true →
    ∃ t, exec (.ldBVx x) s = .next t ∧
      (t.byteAt s.i.toNat).toNat = (s.getV x).toNat / 100 ∧
      (t.byteAt (s.i.toNat + 1)).toNat = (s.getV x).toNat / 10 % 10 ∧
      (t.byteAt (s.i.toNat + 2)).toNat = (s.getV x).toNat % 10 ∧
      (∀ a, a < s.ea 0 ∨ s.ea 0 + 3 ≤ a → t.byteAt a = s.byteAt a) ∧
      t = { s with memory := t.memory, pc := s.pc + 2, call := { redraw := false, diag := none } }

/-- O28. FX55 in range (43_index_memory.md R115): Vk at I + k for k = 0 to X, I past the block modulo 65536, every other byte
unchanged. -/
def Obligations.BlockStored : Prop :=
  ∀ (x : Reg) (s : State), s.i.toNat + x.val < 4096 → Memory.wf s.config.font s.memory = true →
    ∃ t, exec (.ldMemVx x) s = .next t ∧
      (∀ k : Reg, k ≤ x → t.byteAt (s.i.toNat + k.val) = s.getV k) ∧
      (∀ a, a < s.ea 0 ∨ s.ea 0 + (x.val + 1) ≤ a → t.byteAt a = s.byteAt a) ∧
      t.i.toNat = (s.i.toNat + x.val + 1) % 65536 ∧
      t = { s with memory := t.memory, i := t.i, pc := s.pc + 2, call := { redraw := false, diag := none } }

/-- O29. FX65 in range (43_index_memory.md R116): Vk from I + k for k = 0 to X, registers above X unchanged, I past the block. -/
def Obligations.BlockLoaded : Prop :=
  ∀ (x : Reg) (s : State), s.i.toNat + x.val < 4096 →
    ∃ t, exec (.ldVxMem x) s = .next t ∧
      (∀ k : Reg, k ≤ x → t.getV k = s.byteAt (s.i.toNat + k.val)) ∧
      (∀ r : Reg, x < r → t.getV r = s.getV r) ∧
      t.i.toNat = (s.i.toNat + x.val + 1) % 65536 ∧
      t = { s with v := t.v, i := t.i, pc := s.pc + 2, call := { redraw := false, diag := none } }

/-- O30. FX33, FX55, FX65 out of range (60_exceptions.md R138, R139; D2, D3): nothing is written and the core halts with the first
out-of-range address, which is I when I itself is out of range and 4096 otherwise. -/
def Obligations.TransfersOutOfRangeFault : Prop :=
  ∀ (x : Reg) (s : State),
    (4096 ≤ s.i.toNat + 2 → TakesFault (.ldBVx x) s .memRange (if s.i.toNat < 4096 then 4096 else s.i.toNat)) ∧
    (4096 ≤ s.i.toNat + x.val → TakesFault (.ldMemVx x) s .memRange (if s.i.toNat < 4096 then 4096 else s.i.toNat)) ∧
    (4096 ≤ s.i.toNat + x.val → TakesFault (.ldVxMem x) s .memRange (if s.i.toNat < 4096 then 4096 else s.i.toNat))

/-- O31. FX55 then FX65 from the same I over the memory it left gives V0 to VX back, whatever the registers held in between. -/
def Obligations.StoreThenLoadRestores : Prop :=
  ∀ (x : Reg) (s t u : State), s.i.toNat + x.val < 4096 → Memory.wf s.config.font s.memory = true →
    exec (.ldMemVx x) s = .next t → u.memory = t.memory → u.config = s.config → u.i = s.i →
    ∃ w, exec (.ldVxMem x) u = .next w ∧ w.i = t.i ∧ ∀ k : Reg, k ≤ x → w.getV k = s.getV k

/-- O32. A store is seen by the very next fetch (20_memory.md R55, D20), for FX33 and FX55 and wherever the stored bytes lie: after
the store the word fetched is the two bytes at PC + 2 and PC + 3 with the stored ones in the places they cover, the first the high
byte (D1). The store and the next fetch are in range (D2). -/
def Obligations.StoreSeenByNextFetch : Prop :=
  ∀ (x : Reg) (s : State), Memory.wf s.config.font s.memory = true → (s.pc + 2).toNat + 1 < 4096 →
    (s.i.toNat + 2 < 4096 → ∃ t w, exec (.ldBVx x) s = .next t ∧ t.fetch = .ok w ∧
      w.toNat = s.overwritten (s.digitsOf x) (s.pc + 2).toNat * 256 + s.overwritten (s.digitsOf x) ((s.pc + 2).toNat + 1)) ∧
    (s.i.toNat + x.val < 4096 → ∃ t w, exec (.ldMemVx x) s = .next t ∧ t.fetch = .ok w ∧
      w.toNat = s.overwritten (s.blockOf x) (s.pc + 2).toNat * 256 + s.overwritten (s.blockOf x) ((s.pc + 2).toNat + 1))

/-! ### Display -/

/-- O33. 00E0 (44_display.md R117): every pixel unlit, a redraw requested whatever the picture was, VF and all else unchanged; the
redraw ends the batch. -/
def Obligations.ClearScreen : Prop :=
  ∀ s : State, ∃ t, exec .cls s = .next t ∧ (∀ px py, t.pixel px py = false) ∧
    t = { s with display := t.display, pc := s.pc + 2, call := { redraw := true, diag := none } } ∧ t.afterCall.batch = 0

/-- O34. DXYN when every visible row can be read (44_display.md R118 to R120; the origin and the clipped rows are D15): each pixel
under a 1 bit of the sprite flips, no other does, nothing wraps; VF is 1 exactly when a lit pixel was under a 1 bit; a redraw is
requested, for N = 0 too; nothing else changes. -/
def Obligations.DrawSprite : Prop :=
  ∀ (x y : Reg) (n : BitVec 4) (s : State), s.rowsShown y n = 0 ∨ s.i.toNat + s.rowsShown y n ≤ 4096 →
    ∃ t, exec (.drw x y n) s = .next t ∧
      (∀ px py, t.pixel px py = (s.pixel px py ^^ s.picture x y n px py)) ∧
      ((∃ px py, s.picture x y n px py = true ∧ s.pixel px py = true) → (t.getV vf).toNat = 1) ∧
      ((∀ px py, s.picture x y n px py = true → s.pixel px py = false) → (t.getV vf).toNat = 0) ∧
      (∀ r, r ≠ vf → t.getV r = s.getV r) ∧
      t = { s with v := t.v, display := t.display, pc := s.pc + 2, call := { redraw := true, diag := none } }

/-- O35. DXYN when a visible row cannot be read (44_display.md R118; D2, D3): nothing is drawn, VF keeps its value, no redraw, and the
core halts with the first out-of-range address. -/
def Obligations.DrawOutOfRangeFaults : Prop :=
  ∀ (x y : Reg) (n : BitVec 4) (s : State), 0 < s.rowsShown y n → 4096 < s.i.toNat + s.rowsShown y n →
    TakesFault (.drw x y n) s .memRange (if s.i.toNat < 4096 then 4096 else s.i.toNat)

/-- O36. DXYN is its own inverse (44_display.md R121): drawn twice at the same place, with neither X nor Y the flag register, the
framebuffer is as before the first draw and VF tells the second draw's own overlap; onto a clear screen a sprite with a visible 1
bit leaves a clear screen and VF = 1. -/
def Obligations.DrawTwiceRestores : Prop :=
  ∀ (x y : Reg) (n : BitVec 4) (s t : State), x ≠ vf → y ≠ vf →
    s.rowsShown y n = 0 ∨ s.i.toNat + s.rowsShown y n ≤ 4096 → exec (.drw x y n) s = .next t →
    ∃ u, exec (.drw x y n) t = .next u ∧ u.display = s.display ∧
      ((∃ px py, s.picture x y n px py = true ∧ t.pixel px py = true) → (u.getV vf).toNat = 1) ∧
      ((∀ px py, s.picture x y n px py = true → t.pixel px py = false) → (u.getV vf).toNat = 0) ∧
      ((∀ px py, s.pixel px py = false) → (∃ px py, s.picture x y n px py = true) →
        (∀ px py, u.pixel px py = false) ∧ (u.getV vf).toNat = 1)

/-! ### Keypad and timers -/

/-- O37. EX9E and EXA1 with a key number (45_keypad_timers.md R123, R124): the skip by the latch of key VX, nothing else. -/
def Obligations.SkipsOnKey : Prop :=
  ∀ (x : Reg) (k : Key) (s : State), (s.getV x).toNat = k.val →
    exec (.skp x) s = .next { s with
      pc := if s.pressed k = true then s.pc + 4 else s.pc + 2, call := { redraw := false, diag := none } } ∧
    exec (.sknp x) s = .next { s with
      pc := if s.pressed k = true then s.pc + 2 else s.pc + 4, call := { redraw := false, diag := none } }

/-- O38. EX9E and EXA1 with VX of 16 or more (45_keypad_timers.md R122; D10, D3): KEY_RANGE with addr VX. -/
def Obligations.KeyOutOfRangeFaults : Prop :=
  ∀ (x : Reg) (s : State), 16 ≤ (s.getV x).toNat →
    TakesFault (.skp x) s .keyRange (s.getV x).toNat ∧ TakesFault (.sknp x) s .keyRange (s.getV x).toNat

/-- O39. FX15 and FX18 (45_keypad_timers.md R126, R127): the timer is VX until the tick that ends the frame, and that tick makes it
one less, not below 0. -/
def Obligations.TimersSetThenTick : Prop :=
  ∀ (x : Reg) (s : State),
    (∃ t, exec (.ldDtVx x) s = .next t ∧ t.dt = s.getV x ∧ t.tick.dt.toNat = (s.getV x).toNat - 1 ∧
      t = { s with dt := t.dt, pc := s.pc + 2, call := { redraw := false, diag := none } }) ∧
    (∃ t, exec (.ldStVx x) s = .next t ∧ t.st = s.getV x ∧ t.tick.st.toNat = (s.getV x).toNat - 1 ∧
      t = { s with st := t.st, pc := s.pc + 2, call := { redraw := false, diag := none } })

/-- O40. FX0A (45_keypad_timers.md R128; taking the least pressed key is D18): Idle with no key pressed, Idle with least pressed key k, KeyCaptured(k) with k held, and
KeyCaptured(k) with k released, when VX = k commits. While it waits PC stays at the instruction. -/
def Obligations.KeyWaitTransitions : Prop :=
  ∀ (x : Reg) (k : Key) (s : State),
    (s.keyWait = .idle → (∀ j, s.pressed j = false) →
      exec (.ldVxK x) s = .next { s with call := { redraw := false, diag := none } }) ∧
    (s.keyWait = .idle → s.pressed k = true → (∀ j, j < k → s.pressed j = false) →
      exec (.ldVxK x) s = .next { s with keyWait := .keyCaptured k, call := { redraw := false, diag := none } }) ∧
    (s.keyWait = .keyCaptured k → s.pressed k = true →
      exec (.ldVxK x) s = .next { s with call := { redraw := false, diag := none } }) ∧
    (s.keyWait = .keyCaptured k → s.pressed k = false →
      ∃ t, exec (.ldVxK x) s = .next t ∧ (t.getV x).toNat = k.val ∧ (∀ r, r ≠ x → t.getV r = s.getV r) ∧
        t = { s with v := t.v, keyWait := .idle, pc := s.pc + 2, call := { redraw := false, diag := none } })

/-! ### Frames: what an instruction leaves unchanged -/

/-- O41. Registers (10_state.md R20, R21): whichever of the 34 instructions completes, every V register outside its destinations,
VF included where its rule does not write the flag, is unchanged. -/
def Obligations.RegisterFrame : Prop :=
  ∀ (i : Instr) (s t : State) (r : Reg), exec i s = .next t → r ∉ destRegs i → t.getV r = s.getV r

/-- O42. Memory (20_memory.md R44): every byte outside the bytes stored from EA = I on is unchanged; for the 32 instructions that
store nothing that is every byte. -/
def Obligations.MemoryFrame : Prop :=
  ∀ (i : Instr) (s t : State) (a : Nat), exec i s = .next t → a < s.ea 0 ∨ s.ea 0 + storeLength i ≤ a →
    t.byteAt a = s.byteAt a

/-- O43. I, the timers, the stack, the framebuffer, the key wait and the draws (10_state.md R26 to R32): each is unchanged by every
instruction but those the spec names as its writers. -/
def Obligations.SpecialStateFrame : Prop :=
  ∀ (i : Instr) (s t : State), exec i s = .next t →
    (writesI i = false → t.i = s.i) ∧
    ((∀ x, i ≠ .ldDtVx x) → t.dt = s.dt) ∧
    ((∀ x, i ≠ .ldStVx x) → t.st = s.st) ∧
    ((∀ nnn, i ≠ .call nnn) → t.stack = s.stack) ∧
    ((∀ nnn, i ≠ .call nnn) → i ≠ .ret → t.sp = s.sp) ∧
    (isDisplay i = false → t.display = s.display) ∧
    ((∀ x, i ≠ .ldVxK x) → t.keyWait = s.keyWait) ∧
    ((∀ x nn, i ≠ .rnd x nn) → t.draws = s.draws)

/-- O44. What only the host and the sequencer write (10_state.md R30, R33, R34): no instruction changes the keypad, debug_enabled,
mode, the parameters, the image, the host's keypad vector, the coming inputs, the history or the batch position. -/
def Obligations.HostStateFrame : Prop :=
  ∀ (i : Instr) (s t : State), exec i s = .next t →
    t.keypad = s.keypad ∧ t.debugEnabled = s.debugEnabled ∧ t.mode = s.mode ∧ t.config = s.config ∧ t.image = s.image ∧
    t.hostKeys = s.hostKeys ∧ t.inputs = s.inputs ∧ t.events = s.events ∧ t.batch = s.batch

/-- O45. Which instructions fault (60_exceptions.md R138, R139; D2, D3, D10): a call either leaves the fault latch and run_state alone
or is fault entry of an instruction that can raise, with MEM_RANGE at an address of 4096 or more or KEY_RANGE at 16 or more. -/
def Obligations.OnlyListedInstructionsFault : Prop :=
  ∀ (i : Instr) (s t : State), exec i s = .next t →
    (t.fault = s.fault ∧ t.runState = s.runState) ∨
    (∃ kind addr, faultOf i = some kind ∧ TakesFault i s kind addr ∧
      (kind = .memRange → 4096 ≤ addr) ∧ (kind = .keyRange → 16 ≤ addr))

/-! ### The frame sequencer and the host -/

/-- O46. The timer ticker (60_exceptions.md R144): each timer one less, not below 0, independently; once at the end of a frame that
is Running and did not fault, and at no other frame's end. -/
def Obligations.TimerTick : Prop :=
  ∀ s : State,
    s.tick.dt.toNat = s.dt.toNat - 1 ∧ s.tick.st.toNat = s.st.toNat - 1 ∧
    s.tick = { s with dt := s.tick.dt, st := s.tick.st } ∧
    (s.runState = .running → s.fault = none →
      s.closeFrame.dt.toNat = s.dt.toNat - 1 ∧ s.closeFrame.st.toNat = s.st.toNat - 1) ∧
    (s.runState ≠ .running ∨ s.fault ≠ none → s.closeFrame.dt = s.dt ∧ s.closeFrame.st = s.st)

/-- O47. A frame that starts Paused or Halted (40_execution_cycle.md R78, R79; no tick is D13): no call and no tick, only the
framebuffer and the tone are emitted. -/
def Obligations.IdleFrame : Prop :=
  ∀ s : State, s.openFrame.runState ≠ .running →
    step s = .next { s.openFrame with
      events := .tone (decide (s.openFrame.st.toNat > 0)) :: .framebuffer s.openFrame.display :: s.openFrame.events
      batch := 0 }

/-- O48. The end of a batch (40_execution_cycle.md R78, R81, R82, 60_exceptions.md R149; a diagnostic does not end it, D17): the frame
closes after a call that faulted, drew or reached the limit, and after no other. Closing it changes the timers, the batch count and
the history only: the timers tick unless the core faulted or does not run (D13), and the history gains the call's diagnostic, the
framebuffer and then the tone, which is sampled after the tick. -/
def Obligations.BatchEnd : Prop :=
  ∀ t : State,
    (t.fault ≠ none ∨ t.call.redraw = true ∨ t.ipf ≤ t.batch + 1 →
      t.afterCall = { t with
        dt := t.afterCall.dt
        st := t.afterCall.st
        batch := 0
        events := .tone (decide (t.afterCall.st.toNat > 0)) :: .framebuffer t.display ::
          (t.call.diag.toList.map .diagnostic ++ t.events) } ∧
      (t.runState = .running → t.fault = none →
        t.afterCall.dt.toNat = t.dt.toNat - 1 ∧ t.afterCall.st.toNat = t.st.toNat - 1) ∧
      (t.runState ≠ .running ∨ t.fault ≠ none → t.afterCall.dt = t.dt ∧ t.afterCall.st = t.st)) ∧
    (t.fault = none → t.call.redraw = false → t.batch + 1 < t.ipf →
      t.afterCall = { t with batch := t.batch + 1, events := t.call.diag.toList.map .diagnostic ++ t.events })

/-- O49. The step refines the frame procedure (40_execution_cycle.md R78): from between two frames, at least one and at most
max 1 ipf steps give exactly what the procedure gives after the host's turn, and every state in between is inside the frame with
that many calls made. -/
def Obligations.StepsMakeTheFrame : Prop :=
  ∀ s : State, s.batch = 0 →
    ∃ k, 1 ≤ k ∧ k ≤ max 1 s.openFrame.ipf ∧ runSteps k s = frame s.openFrame ∧
      ∀ j, 0 < j → j < k → ∃ u : State, runSteps j s = .next u ∧ u.batch = j

/-- O50. Inside a frame the host does nothing (40_execution_cycle.md R83): a step there leaves the coming inputs, the host's keypad
vector, the keypad, debug_enabled, mode, the image and the parameters alone. -/
def Obligations.HostActsOnlyBetweenFrames : Prop :=
  ∀ s t : State, s.batch ≠ 0 → step s = .next t →
    t.inputs = s.inputs ∧ t.hostKeys = s.hostKeys ∧ t.keypad = s.keypad ∧ t.debugEnabled = s.debugEnabled ∧ t.mode = s.mode ∧
    t.image = s.image ∧ t.config = s.config

/-- O51. No error stops the machine (60_exceptions.md R136, R139): every state has a next state, the parameters stay, and the history
only grows. -/
def Obligations.EveryStateSteps : Prop :=
  ∀ s : State, ∃ t, step s = .next t ∧ t.config = s.config ∧ ∃ new, t.events = new ++ s.events

/-- O52. The invariant of a run (10_state.md R39): every step keeps it. -/
def Obligations.StepKeepsInvariant : Prop :=
  ∀ s t : State, s.Inv → step s = .next t → t.Inv

/-- O53. The invariant holds at reset. -/
def Obligations.ResetMeetsInvariant : Prop := State.reset.Inv

/-- O54. A Halted core (60_exceptions.md R140, D3, D24): unless the host resets it or loads an image, it stays Halted with its fault,
its registers, memory, stack, timers and framebuffer. -/
def Obligations.HaltedStaysHalted : Prop :=
  ∀ s t : State, s.runState = .halted → (∀ as ∈ s.inputs.head?, ∀ a ∈ as, a.replaces = false) →
    step s = .next t →
    t.runState = .halted ∧ t.fault = s.fault ∧ t.memory = s.memory ∧ t.v = s.v ∧ t.i = s.i ∧ t.pc = s.pc ∧
    t.stack = s.stack ∧ t.sp = s.sp ∧ t.dt = s.dt ∧ t.st = s.st ∧ t.display = s.display ∧ t.keyWait = s.keyWait

/-- O55. A parked state (70_reset_and_hazards.md R169(a), D26): while the host does nothing, every step leaves it parked with the
registers, memory, stack and framebuffer it has; only the timers may count down. -/
def Obligations.ParkedStaysParked : Prop :=
  ∀ s t : State, s.Parked → s.batch ≠ 0 ∨ s.inputs = [] → step s = .next t →
    t.Parked ∧ t.v = s.v ∧ t.i = s.i ∧ t.pc = s.pc ∧ t.sp = s.sp ∧ t.stack = s.stack ∧ t.memory = s.memory ∧
    t.display = s.display ∧ t.dt.toNat ≤ s.dt.toNat ∧ t.st.toNat ≤ s.st.toNat

/-- O56. Memory of a fresh state (10_state.md R40, 70_reset_and_hazards.md R156; the zeros are D28): FONT, zeros, the image at 0x200,
zeros after it. -/
def Obligations.InitialMemory : Prop :=
  ∀ (s : State) (image : List Byte) (a : Nat), imageFits image = true →
    (∀ h : a < 80, (s.init image).byteAt a = s.config.font[a]) ∧
    (80 ≤ a → a < 0x200 → (s.init image).byteAt a = 0) ∧
    (∀ k, ∀ h : k < image.length, (s.init image).byteAt (0x200 + k) = image[k]) ∧
    (0x200 + image.length ≤ a → (s.init image).byteAt a = 0)

/-- O57. A load (70_reset_and_hazards.md R156, 60_exceptions.md R132; the state kept after a failed one is D27): at most 3584 bytes
replace the Machine State and are kept as the image; more report RomTooLarge with limit and size and change nothing else. -/
def Obligations.LoadByLength : Prop :=
  ∀ (s : State) (image : List Byte),
    (image.length ≤ 3584 → s.applyAction (.load image) = s.init image ∧ (s.init image).image = image) ∧
    (3584 < image.length → s.applyAction (.load image) = { s with events := .romTooLarge 3584 image.length :: s.events })

/-- O58. The run controls and the keypad (60_exceptions.md R147, R150, R151; the exact effects are D24): quit, pause toggle, reset,
debug toggle, mode, the host's keypad vector, each with nothing else changed; and the host's turn (40_execution_cycle.md R83): before
a frame the actions listed for it are taken from the inputs and applied in order, and then the keypad is read, so that a reset or a
load among them leaves the host's vector in the keypad of that frame (70_reset_and_hazards.md R158). The list of inputs is the
model's own (log 9), and so is the place of the host's vector (log 20). -/
def Obligations.RunControls : Prop :=
  (∀ (s : State) (m : Mode) (keys : Vector Bool 16),
    s.applyAction .quit = { s with runState := .halted } ∧
    (s.runState = .running → s.applyAction .pauseToggle = { s with runState := .paused }) ∧
    (s.runState = .paused → s.applyAction .pauseToggle = { s with runState := .running }) ∧
    (s.runState = .halted → s.applyAction .pauseToggle = s) ∧
    s.applyAction .resetMachine = s.init s.image ∧
    s.applyAction .debugToggle = { s with debugEnabled := !s.debugEnabled } ∧
    ((s.applyAction .debugToggle).ipf = if s.debugEnabled = true then s.config.ipfNominal else 1) ∧
    s.applyAction (.selectMode m) = { s with mode := m } ∧
    s.applyAction (.keypad keys) = { s with hostKeys := keys }) ∧
  (∀ (s u : State) (now : List HostAction) (later : List (List HostAction)), s.batch = 0 → s.inputs = now :: later →
    u = now.foldl State.applyAction { s with inputs := later } → s.openFrame = { u with keypad := u.hostKeys })

/-- O59. The state right after reset (10_state.md R16, 70_reset_and_hazards.md R155), and the state that a load or an in-session reset
makes (R155, R156, R158, 60_exceptions.md R140): every field of the Machine State but memory at its reset value (memory is O56), and
what is outside the Machine State kept. PC = 0x200 is the source's; the other values are the spec's decision D11; the batch position,
the outputs, the history, the inputs, the host's vector and the image are the model's own fields (log 5, 7 to 10, 20). -/
def Obligations.ResetValues : Prop :=
  (State.reset.pc = 0x200 ∧ State.reset.i = 0 ∧ State.reset.sp = 0 ∧ State.reset.dt = 0 ∧ State.reset.st = 0 ∧
    (∀ r, State.reset.getV r = 0) ∧ (∀ k, State.reset.pressed k = false) ∧ (∀ j : Fin 16, State.reset.stack[j] = 0) ∧
    State.reset.keyWait = .idle ∧ State.reset.runState = .running ∧ State.reset.debugEnabled = false ∧
    State.reset.mode = .base ∧ State.reset.fault = none ∧ State.reset.memory = [] ∧ State.reset.batch = 0 ∧
    State.reset.events = [] ∧ (∀ px py, State.reset.pixel px py = false)) ∧
  (∀ (s : State) (image : List Byte),
    (s.init image).pc = 0x200 ∧ (s.init image).i = 0 ∧ (s.init image).sp = 0 ∧ (s.init image).dt = 0 ∧ (s.init image).st = 0 ∧
    (∀ r, (s.init image).getV r = 0) ∧ (∀ k, (s.init image).pressed k = false) ∧
    (∀ j : Fin 16, (s.init image).stack[j] = 0) ∧ (∀ px py, (s.init image).pixel px py = false) ∧
    (s.init image).keyWait = .idle ∧ (s.init image).runState = .running ∧ (s.init image).debugEnabled = false ∧
    (s.init image).mode = .base ∧ (s.init image).fault = none ∧ (s.init image).batch = 0 ∧
    (s.init image).call = { redraw := false, diag := none } ∧ (s.init image).image = image ∧
    (s.init image).events = s.events ∧ (s.init image).inputs = s.inputs ∧ (s.init image).hostKeys = s.hostKeys ∧
    (s.init image).draws = s.draws ∧ (s.init image).config = s.config)

/-- O60. 00EE completes whenever the stack holds an entry (41_control_flow.md R88; that the entry keeps its value is D29): PC is the
top entry, SP one less, the outputs of the call empty, and the state otherwise as before. -/
def Obligations.ReturnCompletes : Prop :=
  ∀ (s : State) (j : Fin 16), s.sp.val = j.val + 1 →
    exec .ret s = .next { s with pc := s.stack[j], sp := j.castSucc, call := { redraw := false, diag := none } }
end

