-- ==== Sys2Proof/Laws/State.lean ====
section
/-! SUPPORT. One lemma per field (and per accessor) per update of the state, so that no later proof unfolds a record update. -/

namespace Sys2Proof.Machine

/-! ### setV -/

@[simp] theorem State.setV_memory (s : State) (r : Reg) (b : Byte) : (s.setV r b).memory = s.memory := rfl
@[simp] theorem State.setV_v (s : State) (r : Reg) (b : Byte) : (s.setV r b).v = s.v.set r b := rfl
@[simp] theorem State.setV_i (s : State) (r : Reg) (b : Byte) : (s.setV r b).i = s.i := rfl
@[simp] theorem State.setV_pc (s : State) (r : Reg) (b : Byte) : (s.setV r b).pc = s.pc := rfl
@[simp] theorem State.setV_stack (s : State) (r : Reg) (b : Byte) : (s.setV r b).stack = s.stack := rfl
@[simp] theorem State.setV_sp (s : State) (r : Reg) (b : Byte) : (s.setV r b).sp = s.sp := rfl
@[simp] theorem State.setV_dt (s : State) (r : Reg) (b : Byte) : (s.setV r b).dt = s.dt := rfl
@[simp] theorem State.setV_st (s : State) (r : Reg) (b : Byte) : (s.setV r b).st = s.st := rfl
@[simp] theorem State.setV_keypad (s : State) (r : Reg) (b : Byte) : (s.setV r b).keypad = s.keypad := rfl
@[simp] theorem State.setV_display (s : State) (r : Reg) (b : Byte) : (s.setV r b).display = s.display := rfl
@[simp] theorem State.setV_keyWait (s : State) (r : Reg) (b : Byte) : (s.setV r b).keyWait = s.keyWait := rfl
@[simp] theorem State.setV_runState (s : State) (r : Reg) (b : Byte) : (s.setV r b).runState = s.runState := rfl
@[simp] theorem State.setV_debugEnabled (s : State) (r : Reg) (b : Byte) : (s.setV r b).debugEnabled = s.debugEnabled := rfl
@[simp] theorem State.setV_mode (s : State) (r : Reg) (b : Byte) : (s.setV r b).mode = s.mode := rfl
@[simp] theorem State.setV_fault (s : State) (r : Reg) (b : Byte) : (s.setV r b).fault = s.fault := rfl
@[simp] theorem State.setV_call (s : State) (r : Reg) (b : Byte) : (s.setV r b).call = s.call := rfl
@[simp] theorem State.setV_batch (s : State) (r : Reg) (b : Byte) : (s.setV r b).batch = s.batch := rfl
@[simp] theorem State.setV_events (s : State) (r : Reg) (b : Byte) : (s.setV r b).events = s.events := rfl
@[simp] theorem State.setV_inputs (s : State) (r : Reg) (b : Byte) : (s.setV r b).inputs = s.inputs := rfl
@[simp] theorem State.setV_image (s : State) (r : Reg) (b : Byte) : (s.setV r b).image = s.image := rfl
@[simp] theorem State.setV_draws (s : State) (r : Reg) (b : Byte) : (s.setV r b).draws = s.draws := rfl
@[simp] theorem State.setV_config (s : State) (r : Reg) (b : Byte) : (s.setV r b).config = s.config := rfl
@[simp] theorem State.setV_hostKeys (s : State) (r : Reg) (b : Byte) : (s.setV r b).hostKeys = s.hostKeys := rfl
@[simp] theorem State.setV_pixel (s : State) (r : Reg) (b : Byte) (x0 : Fin 64) (y0 : Fin 32) : (s.setV r b).pixel x0 y0 = s.pixel x0 y0 := rfl
@[simp] theorem State.setV_byteAt (s : State) (r : Reg) (b : Byte) (a0 : Nat) : (s.setV r b).byteAt a0 = s.byteAt a0 := rfl
@[simp] theorem State.setV_pressed (s : State) (r : Reg) (b : Byte) (k0 : Key) : (s.setV r b).pressed k0 = s.pressed k0 := rfl
@[simp] theorem State.setV_ea (s : State) (r : Reg) (b : Byte) (n : Nat) : (s.setV r b).ea n = s.ea n := rfl
@[simp] theorem State.setV_ipf (s : State) (r : Reg) (b : Byte) : (s.setV r b).ipf = s.ipf := rfl

/-! ### setFlag -/

@[simp] theorem State.setFlag_memory (s : State) (c : Bool) : (s.setFlag c).memory = s.memory := rfl
@[simp] theorem State.setFlag_v (s : State) (c : Bool) : (s.setFlag c).v = s.v.set vf (flagByte c) := rfl
@[simp] theorem State.setFlag_i (s : State) (c : Bool) : (s.setFlag c).i = s.i := rfl
@[simp] theorem State.setFlag_pc (s : State) (c : Bool) : (s.setFlag c).pc = s.pc := rfl
@[simp] theorem State.setFlag_stack (s : State) (c : Bool) : (s.setFlag c).stack = s.stack := rfl
@[simp] theorem State.setFlag_sp (s : State) (c : Bool) : (s.setFlag c).sp = s.sp := rfl
@[simp] theorem State.setFlag_dt (s : State) (c : Bool) : (s.setFlag c).dt = s.dt := rfl
@[simp] theorem State.setFlag_st (s : State) (c : Bool) : (s.setFlag c).st = s.st := rfl
@[simp] theorem State.setFlag_keypad (s : State) (c : Bool) : (s.setFlag c).keypad = s.keypad := rfl
@[simp] theorem State.setFlag_display (s : State) (c : Bool) : (s.setFlag c).display = s.display := rfl
@[simp] theorem State.setFlag_keyWait (s : State) (c : Bool) : (s.setFlag c).keyWait = s.keyWait := rfl
@[simp] theorem State.setFlag_runState (s : State) (c : Bool) : (s.setFlag c).runState = s.runState := rfl
@[simp] theorem State.setFlag_debugEnabled (s : State) (c : Bool) : (s.setFlag c).debugEnabled = s.debugEnabled := rfl
@[simp] theorem State.setFlag_mode (s : State) (c : Bool) : (s.setFlag c).mode = s.mode := rfl
@[simp] theorem State.setFlag_fault (s : State) (c : Bool) : (s.setFlag c).fault = s.fault := rfl
@[simp] theorem State.setFlag_call (s : State) (c : Bool) : (s.setFlag c).call = s.call := rfl
@[simp] theorem State.setFlag_batch (s : State) (c : Bool) : (s.setFlag c).batch = s.batch := rfl
@[simp] theorem State.setFlag_events (s : State) (c : Bool) : (s.setFlag c).events = s.events := rfl
@[simp] theorem State.setFlag_inputs (s : State) (c : Bool) : (s.setFlag c).inputs = s.inputs := rfl
@[simp] theorem State.setFlag_image (s : State) (c : Bool) : (s.setFlag c).image = s.image := rfl
@[simp] theorem State.setFlag_draws (s : State) (c : Bool) : (s.setFlag c).draws = s.draws := rfl
@[simp] theorem State.setFlag_config (s : State) (c : Bool) : (s.setFlag c).config = s.config := rfl
@[simp] theorem State.setFlag_hostKeys (s : State) (c : Bool) : (s.setFlag c).hostKeys = s.hostKeys := rfl
@[simp] theorem State.setFlag_pixel (s : State) (c : Bool) (x0 : Fin 64) (y0 : Fin 32) : (s.setFlag c).pixel x0 y0 = s.pixel x0 y0 := rfl
@[simp] theorem State.setFlag_byteAt (s : State) (c : Bool) (a0 : Nat) : (s.setFlag c).byteAt a0 = s.byteAt a0 := rfl
@[simp] theorem State.setFlag_pressed (s : State) (c : Bool) (k0 : Key) : (s.setFlag c).pressed k0 = s.pressed k0 := rfl
@[simp] theorem State.setFlag_ea (s : State) (c : Bool) (n : Nat) : (s.setFlag c).ea n = s.ea n := rfl
@[simp] theorem State.setFlag_ipf (s : State) (c : Bool) : (s.setFlag c).ipf = s.ipf := rfl

/-! ### setI -/

@[simp] theorem State.setI_memory (s : State) (w : Word) : (s.setI w).memory = s.memory := rfl
@[simp] theorem State.setI_v (s : State) (w : Word) : (s.setI w).v = s.v := rfl
@[simp] theorem State.setI_i (s : State) (w : Word) : (s.setI w).i = w := rfl
@[simp] theorem State.setI_pc (s : State) (w : Word) : (s.setI w).pc = s.pc := rfl
@[simp] theorem State.setI_stack (s : State) (w : Word) : (s.setI w).stack = s.stack := rfl
@[simp] theorem State.setI_sp (s : State) (w : Word) : (s.setI w).sp = s.sp := rfl
@[simp] theorem State.setI_dt (s : State) (w : Word) : (s.setI w).dt = s.dt := rfl
@[simp] theorem State.setI_st (s : State) (w : Word) : (s.setI w).st = s.st := rfl
@[simp] theorem State.setI_keypad (s : State) (w : Word) : (s.setI w).keypad = s.keypad := rfl
@[simp] theorem State.setI_display (s : State) (w : Word) : (s.setI w).display = s.display := rfl
@[simp] theorem State.setI_keyWait (s : State) (w : Word) : (s.setI w).keyWait = s.keyWait := rfl
@[simp] theorem State.setI_runState (s : State) (w : Word) : (s.setI w).runState = s.runState := rfl
@[simp] theorem State.setI_debugEnabled (s : State) (w : Word) : (s.setI w).debugEnabled = s.debugEnabled := rfl
@[simp] theorem State.setI_mode (s : State) (w : Word) : (s.setI w).mode = s.mode := rfl
@[simp] theorem State.setI_fault (s : State) (w : Word) : (s.setI w).fault = s.fault := rfl
@[simp] theorem State.setI_call (s : State) (w : Word) : (s.setI w).call = s.call := rfl
@[simp] theorem State.setI_batch (s : State) (w : Word) : (s.setI w).batch = s.batch := rfl
@[simp] theorem State.setI_events (s : State) (w : Word) : (s.setI w).events = s.events := rfl
@[simp] theorem State.setI_inputs (s : State) (w : Word) : (s.setI w).inputs = s.inputs := rfl
@[simp] theorem State.setI_image (s : State) (w : Word) : (s.setI w).image = s.image := rfl
@[simp] theorem State.setI_draws (s : State) (w : Word) : (s.setI w).draws = s.draws := rfl
@[simp] theorem State.setI_config (s : State) (w : Word) : (s.setI w).config = s.config := rfl
@[simp] theorem State.setI_hostKeys (s : State) (w : Word) : (s.setI w).hostKeys = s.hostKeys := rfl
@[simp] theorem State.setI_getV (s : State) (w : Word) (q : Reg) : (s.setI w).getV q = s.getV q := rfl
@[simp] theorem State.setI_pixel (s : State) (w : Word) (x0 : Fin 64) (y0 : Fin 32) : (s.setI w).pixel x0 y0 = s.pixel x0 y0 := rfl
@[simp] theorem State.setI_byteAt (s : State) (w : Word) (a0 : Nat) : (s.setI w).byteAt a0 = s.byteAt a0 := rfl
@[simp] theorem State.setI_pressed (s : State) (w : Word) (k0 : Key) : (s.setI w).pressed k0 = s.pressed k0 := rfl
@[simp] theorem State.setI_ipf (s : State) (w : Word) : (s.setI w).ipf = s.ipf := rfl

/-! ### setPc -/

@[simp] theorem State.setPc_memory (s : State) (w : Word) : (s.setPc w).memory = s.memory := rfl
@[simp] theorem State.setPc_v (s : State) (w : Word) : (s.setPc w).v = s.v := rfl
@[simp] theorem State.setPc_i (s : State) (w : Word) : (s.setPc w).i = s.i := rfl
@[simp] theorem State.setPc_pc (s : State) (w : Word) : (s.setPc w).pc = w := rfl
@[simp] theorem State.setPc_stack (s : State) (w : Word) : (s.setPc w).stack = s.stack := rfl
@[simp] theorem State.setPc_sp (s : State) (w : Word) : (s.setPc w).sp = s.sp := rfl
@[simp] theorem State.setPc_dt (s : State) (w : Word) : (s.setPc w).dt = s.dt := rfl
@[simp] theorem State.setPc_st (s : State) (w : Word) : (s.setPc w).st = s.st := rfl
@[simp] theorem State.setPc_keypad (s : State) (w : Word) : (s.setPc w).keypad = s.keypad := rfl
@[simp] theorem State.setPc_display (s : State) (w : Word) : (s.setPc w).display = s.display := rfl
@[simp] theorem State.setPc_keyWait (s : State) (w : Word) : (s.setPc w).keyWait = s.keyWait := rfl
@[simp] theorem State.setPc_runState (s : State) (w : Word) : (s.setPc w).runState = s.runState := rfl
@[simp] theorem State.setPc_debugEnabled (s : State) (w : Word) : (s.setPc w).debugEnabled = s.debugEnabled := rfl
@[simp] theorem State.setPc_mode (s : State) (w : Word) : (s.setPc w).mode = s.mode := rfl
@[simp] theorem State.setPc_fault (s : State) (w : Word) : (s.setPc w).fault = s.fault := rfl
@[simp] theorem State.setPc_call (s : State) (w : Word) : (s.setPc w).call = s.call := rfl
@[simp] theorem State.setPc_batch (s : State) (w : Word) : (s.setPc w).batch = s.batch := rfl
@[simp] theorem State.setPc_events (s : State) (w : Word) : (s.setPc w).events = s.events := rfl
@[simp] theorem State.setPc_inputs (s : State) (w : Word) : (s.setPc w).inputs = s.inputs := rfl
@[simp] theorem State.setPc_image (s : State) (w : Word) : (s.setPc w).image = s.image := rfl
@[simp] theorem State.setPc_draws (s : State) (w : Word) : (s.setPc w).draws = s.draws := rfl
@[simp] theorem State.setPc_config (s : State) (w : Word) : (s.setPc w).config = s.config := rfl
@[simp] theorem State.setPc_hostKeys (s : State) (w : Word) : (s.setPc w).hostKeys = s.hostKeys := rfl
@[simp] theorem State.setPc_getV (s : State) (w : Word) (q : Reg) : (s.setPc w).getV q = s.getV q := rfl
@[simp] theorem State.setPc_pixel (s : State) (w : Word) (x0 : Fin 64) (y0 : Fin 32) : (s.setPc w).pixel x0 y0 = s.pixel x0 y0 := rfl
@[simp] theorem State.setPc_byteAt (s : State) (w : Word) (a0 : Nat) : (s.setPc w).byteAt a0 = s.byteAt a0 := rfl
@[simp] theorem State.setPc_pressed (s : State) (w : Word) (k0 : Key) : (s.setPc w).pressed k0 = s.pressed k0 := rfl
@[simp] theorem State.setPc_ea (s : State) (w : Word) (n : Nat) : (s.setPc w).ea n = s.ea n := rfl
@[simp] theorem State.setPc_ipf (s : State) (w : Word) : (s.setPc w).ipf = s.ipf := rfl

/-! ### setDt -/

@[simp] theorem State.setDt_memory (s : State) (b : Byte) : (s.setDt b).memory = s.memory := rfl
@[simp] theorem State.setDt_v (s : State) (b : Byte) : (s.setDt b).v = s.v := rfl
@[simp] theorem State.setDt_i (s : State) (b : Byte) : (s.setDt b).i = s.i := rfl
@[simp] theorem State.setDt_pc (s : State) (b : Byte) : (s.setDt b).pc = s.pc := rfl
@[simp] theorem State.setDt_stack (s : State) (b : Byte) : (s.setDt b).stack = s.stack := rfl
@[simp] theorem State.setDt_sp (s : State) (b : Byte) : (s.setDt b).sp = s.sp := rfl
@[simp] theorem State.setDt_dt (s : State) (b : Byte) : (s.setDt b).dt = b := rfl
@[simp] theorem State.setDt_st (s : State) (b : Byte) : (s.setDt b).st = s.st := rfl
@[simp] theorem State.setDt_keypad (s : State) (b : Byte) : (s.setDt b).keypad = s.keypad := rfl
@[simp] theorem State.setDt_display (s : State) (b : Byte) : (s.setDt b).display = s.display := rfl
@[simp] theorem State.setDt_keyWait (s : State) (b : Byte) : (s.setDt b).keyWait = s.keyWait := rfl
@[simp] theorem State.setDt_runState (s : State) (b : Byte) : (s.setDt b).runState = s.runState := rfl
@[simp] theorem State.setDt_debugEnabled (s : State) (b : Byte) : (s.setDt b).debugEnabled = s.debugEnabled := rfl
@[simp] theorem State.setDt_mode (s : State) (b : Byte) : (s.setDt b).mode = s.mode := rfl
@[simp] theorem State.setDt_fault (s : State) (b : Byte) : (s.setDt b).fault = s.fault := rfl
@[simp] theorem State.setDt_call (s : State) (b : Byte) : (s.setDt b).call = s.call := rfl
@[simp] theorem State.setDt_batch (s : State) (b : Byte) : (s.setDt b).batch = s.batch := rfl
@[simp] theorem State.setDt_events (s : State) (b : Byte) : (s.setDt b).events = s.events := rfl
@[simp] theorem State.setDt_inputs (s : State) (b : Byte) : (s.setDt b).inputs = s.inputs := rfl
@[simp] theorem State.setDt_image (s : State) (b : Byte) : (s.setDt b).image = s.image := rfl
@[simp] theorem State.setDt_draws (s : State) (b : Byte) : (s.setDt b).draws = s.draws := rfl
@[simp] theorem State.setDt_config (s : State) (b : Byte) : (s.setDt b).config = s.config := rfl
@[simp] theorem State.setDt_hostKeys (s : State) (b : Byte) : (s.setDt b).hostKeys = s.hostKeys := rfl
@[simp] theorem State.setDt_getV (s : State) (b : Byte) (q : Reg) : (s.setDt b).getV q = s.getV q := rfl
@[simp] theorem State.setDt_pixel (s : State) (b : Byte) (x0 : Fin 64) (y0 : Fin 32) : (s.setDt b).pixel x0 y0 = s.pixel x0 y0 := rfl
@[simp] theorem State.setDt_byteAt (s : State) (b : Byte) (a0 : Nat) : (s.setDt b).byteAt a0 = s.byteAt a0 := rfl
@[simp] theorem State.setDt_pressed (s : State) (b : Byte) (k0 : Key) : (s.setDt b).pressed k0 = s.pressed k0 := rfl
@[simp] theorem State.setDt_ea (s : State) (b : Byte) (n : Nat) : (s.setDt b).ea n = s.ea n := rfl
@[simp] theorem State.setDt_ipf (s : State) (b : Byte) : (s.setDt b).ipf = s.ipf := rfl

/-! ### setSt -/

@[simp] theorem State.setSt_memory (s : State) (b : Byte) : (s.setSt b).memory = s.memory := rfl
@[simp] theorem State.setSt_v (s : State) (b : Byte) : (s.setSt b).v = s.v := rfl
@[simp] theorem State.setSt_i (s : State) (b : Byte) : (s.setSt b).i = s.i := rfl
@[simp] theorem State.setSt_pc (s : State) (b : Byte) : (s.setSt b).pc = s.pc := rfl
@[simp] theorem State.setSt_stack (s : State) (b : Byte) : (s.setSt b).stack = s.stack := rfl
@[simp] theorem State.setSt_sp (s : State) (b : Byte) : (s.setSt b).sp = s.sp := rfl
@[simp] theorem State.setSt_dt (s : State) (b : Byte) : (s.setSt b).dt = s.dt := rfl
@[simp] theorem State.setSt_st (s : State) (b : Byte) : (s.setSt b).st = b := rfl
@[simp] theorem State.setSt_keypad (s : State) (b : Byte) : (s.setSt b).keypad = s.keypad := rfl
@[simp] theorem State.setSt_display (s : State) (b : Byte) : (s.setSt b).display = s.display := rfl
@[simp] theorem State.setSt_keyWait (s : State) (b : Byte) : (s.setSt b).keyWait = s.keyWait := rfl
@[simp] theorem State.setSt_runState (s : State) (b : Byte) : (s.setSt b).runState = s.runState := rfl
@[simp] theorem State.setSt_debugEnabled (s : State) (b : Byte) : (s.setSt b).debugEnabled = s.debugEnabled := rfl
@[simp] theorem State.setSt_mode (s : State) (b : Byte) : (s.setSt b).mode = s.mode := rfl
@[simp] theorem State.setSt_fault (s : State) (b : Byte) : (s.setSt b).fault = s.fault := rfl
@[simp] theorem State.setSt_call (s : State) (b : Byte) : (s.setSt b).call = s.call := rfl
@[simp] theorem State.setSt_batch (s : State) (b : Byte) : (s.setSt b).batch = s.batch := rfl
@[simp] theorem State.setSt_events (s : State) (b : Byte) : (s.setSt b).events = s.events := rfl
@[simp] theorem State.setSt_inputs (s : State) (b : Byte) : (s.setSt b).inputs = s.inputs := rfl
@[simp] theorem State.setSt_image (s : State) (b : Byte) : (s.setSt b).image = s.image := rfl
@[simp] theorem State.setSt_draws (s : State) (b : Byte) : (s.setSt b).draws = s.draws := rfl
@[simp] theorem State.setSt_config (s : State) (b : Byte) : (s.setSt b).config = s.config := rfl
@[simp] theorem State.setSt_hostKeys (s : State) (b : Byte) : (s.setSt b).hostKeys = s.hostKeys := rfl
@[simp] theorem State.setSt_getV (s : State) (b : Byte) (q : Reg) : (s.setSt b).getV q = s.getV q := rfl
@[simp] theorem State.setSt_pixel (s : State) (b : Byte) (x0 : Fin 64) (y0 : Fin 32) : (s.setSt b).pixel x0 y0 = s.pixel x0 y0 := rfl
@[simp] theorem State.setSt_byteAt (s : State) (b : Byte) (a0 : Nat) : (s.setSt b).byteAt a0 = s.byteAt a0 := rfl
@[simp] theorem State.setSt_pressed (s : State) (b : Byte) (k0 : Key) : (s.setSt b).pressed k0 = s.pressed k0 := rfl
@[simp] theorem State.setSt_ea (s : State) (b : Byte) (n : Nat) : (s.setSt b).ea n = s.ea n := rfl
@[simp] theorem State.setSt_ipf (s : State) (b : Byte) : (s.setSt b).ipf = s.ipf := rfl

/-! ### setKeyWait -/

@[simp] theorem State.setKeyWait_memory (s : State) (k : KeyWait) : (s.setKeyWait k).memory = s.memory := rfl
@[simp] theorem State.setKeyWait_v (s : State) (k : KeyWait) : (s.setKeyWait k).v = s.v := rfl
@[simp] theorem State.setKeyWait_i (s : State) (k : KeyWait) : (s.setKeyWait k).i = s.i := rfl
@[simp] theorem State.setKeyWait_pc (s : State) (k : KeyWait) : (s.setKeyWait k).pc = s.pc := rfl
@[simp] theorem State.setKeyWait_stack (s : State) (k : KeyWait) : (s.setKeyWait k).stack = s.stack := rfl
@[simp] theorem State.setKeyWait_sp (s : State) (k : KeyWait) : (s.setKeyWait k).sp = s.sp := rfl
@[simp] theorem State.setKeyWait_dt (s : State) (k : KeyWait) : (s.setKeyWait k).dt = s.dt := rfl
@[simp] theorem State.setKeyWait_st (s : State) (k : KeyWait) : (s.setKeyWait k).st = s.st := rfl
@[simp] theorem State.setKeyWait_keypad (s : State) (k : KeyWait) : (s.setKeyWait k).keypad = s.keypad := rfl
@[simp] theorem State.setKeyWait_display (s : State) (k : KeyWait) : (s.setKeyWait k).display = s.display := rfl
@[simp] theorem State.setKeyWait_keyWait (s : State) (k : KeyWait) : (s.setKeyWait k).keyWait = k := rfl
@[simp] theorem State.setKeyWait_runState (s : State) (k : KeyWait) : (s.setKeyWait k).runState = s.runState := rfl
@[simp] theorem State.setKeyWait_debugEnabled (s : State) (k : KeyWait) : (s.setKeyWait k).debugEnabled = s.debugEnabled := rfl
@[simp] theorem State.setKeyWait_mode (s : State) (k : KeyWait) : (s.setKeyWait k).mode = s.mode := rfl
@[simp] theorem State.setKeyWait_fault (s : State) (k : KeyWait) : (s.setKeyWait k).fault = s.fault := rfl
@[simp] theorem State.setKeyWait_call (s : State) (k : KeyWait) : (s.setKeyWait k).call = s.call := rfl
@[simp] theorem State.setKeyWait_batch (s : State) (k : KeyWait) : (s.setKeyWait k).batch = s.batch := rfl
@[simp] theorem State.setKeyWait_events (s : State) (k : KeyWait) : (s.setKeyWait k).events = s.events := rfl
@[simp] theorem State.setKeyWait_inputs (s : State) (k : KeyWait) : (s.setKeyWait k).inputs = s.inputs := rfl
@[simp] theorem State.setKeyWait_image (s : State) (k : KeyWait) : (s.setKeyWait k).image = s.image := rfl
@[simp] theorem State.setKeyWait_draws (s : State) (k : KeyWait) : (s.setKeyWait k).draws = s.draws := rfl
@[simp] theorem State.setKeyWait_config (s : State) (k : KeyWait) : (s.setKeyWait k).config = s.config := rfl
@[simp] theorem State.setKeyWait_hostKeys (s : State) (k : KeyWait) : (s.setKeyWait k).hostKeys = s.hostKeys := rfl
@[simp] theorem State.setKeyWait_getV (s : State) (k : KeyWait) (q : Reg) : (s.setKeyWait k).getV q = s.getV q := rfl
@[simp] theorem State.setKeyWait_pixel (s : State) (k : KeyWait) (x0 : Fin 64) (y0 : Fin 32) : (s.setKeyWait k).pixel x0 y0 = s.pixel x0 y0 := rfl
@[simp] theorem State.setKeyWait_byteAt (s : State) (k : KeyWait) (a0 : Nat) : (s.setKeyWait k).byteAt a0 = s.byteAt a0 := rfl
@[simp] theorem State.setKeyWait_pressed (s : State) (k : KeyWait) (k0 : Key) : (s.setKeyWait k).pressed k0 = s.pressed k0 := rfl
@[simp] theorem State.setKeyWait_ea (s : State) (k : KeyWait) (n : Nat) : (s.setKeyWait k).ea n = s.ea n := rfl
@[simp] theorem State.setKeyWait_ipf (s : State) (k : KeyWait) : (s.setKeyWait k).ipf = s.ipf := rfl

/-! ### enter -/

@[simp] theorem State.enter_memory (s : State) : (s.enter).memory = s.memory := rfl
@[simp] theorem State.enter_v (s : State) : (s.enter).v = s.v := rfl
@[simp] theorem State.enter_i (s : State) : (s.enter).i = s.i := rfl
@[simp] theorem State.enter_pc (s : State) : (s.enter).pc = s.pc + 2 := rfl
@[simp] theorem State.enter_stack (s : State) : (s.enter).stack = s.stack := rfl
@[simp] theorem State.enter_sp (s : State) : (s.enter).sp = s.sp := rfl
@[simp] theorem State.enter_dt (s : State) : (s.enter).dt = s.dt := rfl
@[simp] theorem State.enter_st (s : State) : (s.enter).st = s.st := rfl
@[simp] theorem State.enter_keypad (s : State) : (s.enter).keypad = s.keypad := rfl
@[simp] theorem State.enter_display (s : State) : (s.enter).display = s.display := rfl
@[simp] theorem State.enter_keyWait (s : State) : (s.enter).keyWait = s.keyWait := rfl
@[simp] theorem State.enter_runState (s : State) : (s.enter).runState = s.runState := rfl
@[simp] theorem State.enter_debugEnabled (s : State) : (s.enter).debugEnabled = s.debugEnabled := rfl
@[simp] theorem State.enter_mode (s : State) : (s.enter).mode = s.mode := rfl
@[simp] theorem State.enter_fault (s : State) : (s.enter).fault = s.fault := rfl
@[simp] theorem State.enter_call (s : State) : (s.enter).call = CallOutput.none := rfl
@[simp] theorem State.enter_batch (s : State) : (s.enter).batch = s.batch := rfl
@[simp] theorem State.enter_events (s : State) : (s.enter).events = s.events := rfl
@[simp] theorem State.enter_inputs (s : State) : (s.enter).inputs = s.inputs := rfl
@[simp] theorem State.enter_image (s : State) : (s.enter).image = s.image := rfl
@[simp] theorem State.enter_draws (s : State) : (s.enter).draws = s.draws := rfl
@[simp] theorem State.enter_config (s : State) : (s.enter).config = s.config := rfl
@[simp] theorem State.enter_hostKeys (s : State) : (s.enter).hostKeys = s.hostKeys := rfl
@[simp] theorem State.enter_getV (s : State) (q : Reg) : (s.enter).getV q = s.getV q := rfl
@[simp] theorem State.enter_pixel (s : State) (x0 : Fin 64) (y0 : Fin 32) : (s.enter).pixel x0 y0 = s.pixel x0 y0 := rfl
@[simp] theorem State.enter_byteAt (s : State) (a0 : Nat) : (s.enter).byteAt a0 = s.byteAt a0 := rfl
@[simp] theorem State.enter_pressed (s : State) (k0 : Key) : (s.enter).pressed k0 = s.pressed k0 := rfl
@[simp] theorem State.enter_ea (s : State) (n : Nat) : (s.enter).ea n = s.ea n := rfl
@[simp] theorem State.enter_ipf (s : State) : (s.enter).ipf = s.ipf := rfl

/-! ### skip -/

@[simp] theorem State.skip_memory (s : State) : (s.skip).memory = s.memory := rfl
@[simp] theorem State.skip_v (s : State) : (s.skip).v = s.v := rfl
@[simp] theorem State.skip_i (s : State) : (s.skip).i = s.i := rfl
@[simp] theorem State.skip_pc (s : State) : (s.skip).pc = s.pc + 2 := rfl
@[simp] theorem State.skip_stack (s : State) : (s.skip).stack = s.stack := rfl
@[simp] theorem State.skip_sp (s : State) : (s.skip).sp = s.sp := rfl
@[simp] theorem State.skip_dt (s : State) : (s.skip).dt = s.dt := rfl
@[simp] theorem State.skip_st (s : State) : (s.skip).st = s.st := rfl
@[simp] theorem State.skip_keypad (s : State) : (s.skip).keypad = s.keypad := rfl
@[simp] theorem State.skip_display (s : State) : (s.skip).display = s.display := rfl
@[simp] theorem State.skip_keyWait (s : State) : (s.skip).keyWait = s.keyWait := rfl
@[simp] theorem State.skip_runState (s : State) : (s.skip).runState = s.runState := rfl
@[simp] theorem State.skip_debugEnabled (s : State) : (s.skip).debugEnabled = s.debugEnabled := rfl
@[simp] theorem State.skip_mode (s : State) : (s.skip).mode = s.mode := rfl
@[simp] theorem State.skip_fault (s : State) : (s.skip).fault = s.fault := rfl
@[simp] theorem State.skip_call (s : State) : (s.skip).call = s.call := rfl
@[simp] theorem State.skip_batch (s : State) : (s.skip).batch = s.batch := rfl
@[simp] theorem State.skip_events (s : State) : (s.skip).events = s.events := rfl
@[simp] theorem State.skip_inputs (s : State) : (s.skip).inputs = s.inputs := rfl
@[simp] theorem State.skip_image (s : State) : (s.skip).image = s.image := rfl
@[simp] theorem State.skip_draws (s : State) : (s.skip).draws = s.draws := rfl
@[simp] theorem State.skip_config (s : State) : (s.skip).config = s.config := rfl
@[simp] theorem State.skip_hostKeys (s : State) : (s.skip).hostKeys = s.hostKeys := rfl
@[simp] theorem State.skip_getV (s : State) (q : Reg) : (s.skip).getV q = s.getV q := rfl
@[simp] theorem State.skip_pixel (s : State) (x0 : Fin 64) (y0 : Fin 32) : (s.skip).pixel x0 y0 = s.pixel x0 y0 := rfl
@[simp] theorem State.skip_byteAt (s : State) (a0 : Nat) : (s.skip).byteAt a0 = s.byteAt a0 := rfl
@[simp] theorem State.skip_pressed (s : State) (k0 : Key) : (s.skip).pressed k0 = s.pressed k0 := rfl
@[simp] theorem State.skip_ea (s : State) (n : Nat) : (s.skip).ea n = s.ea n := rfl
@[simp] theorem State.skip_ipf (s : State) : (s.skip).ipf = s.ipf := rfl

/-! ### rewind -/

@[simp] theorem State.rewind_memory (s : State) : (s.rewind).memory = s.memory := rfl
@[simp] theorem State.rewind_v (s : State) : (s.rewind).v = s.v := rfl
@[simp] theorem State.rewind_i (s : State) : (s.rewind).i = s.i := rfl
@[simp] theorem State.rewind_pc (s : State) : (s.rewind).pc = s.pc - 2 := rfl
@[simp] theorem State.rewind_stack (s : State) : (s.rewind).stack = s.stack := rfl
@[simp] theorem State.rewind_sp (s : State) : (s.rewind).sp = s.sp := rfl
@[simp] theorem State.rewind_dt (s : State) : (s.rewind).dt = s.dt := rfl
@[simp] theorem State.rewind_st (s : State) : (s.rewind).st = s.st := rfl
@[simp] theorem State.rewind_keypad (s : State) : (s.rewind).keypad = s.keypad := rfl
@[simp] theorem State.rewind_display (s : State) : (s.rewind).display = s.display := rfl
@[simp] theorem State.rewind_keyWait (s : State) : (s.rewind).keyWait = s.keyWait := rfl
@[simp] theorem State.rewind_runState (s : State) : (s.rewind).runState = s.runState := rfl
@[simp] theorem State.rewind_debugEnabled (s : State) : (s.rewind).debugEnabled = s.debugEnabled := rfl
@[simp] theorem State.rewind_mode (s : State) : (s.rewind).mode = s.mode := rfl
@[simp] theorem State.rewind_fault (s : State) : (s.rewind).fault = s.fault := rfl
@[simp] theorem State.rewind_call (s : State) : (s.rewind).call = s.call := rfl
@[simp] theorem State.rewind_batch (s : State) : (s.rewind).batch = s.batch := rfl
@[simp] theorem State.rewind_events (s : State) : (s.rewind).events = s.events := rfl
@[simp] theorem State.rewind_inputs (s : State) : (s.rewind).inputs = s.inputs := rfl
@[simp] theorem State.rewind_image (s : State) : (s.rewind).image = s.image := rfl
@[simp] theorem State.rewind_draws (s : State) : (s.rewind).draws = s.draws := rfl
@[simp] theorem State.rewind_config (s : State) : (s.rewind).config = s.config := rfl
@[simp] theorem State.rewind_hostKeys (s : State) : (s.rewind).hostKeys = s.hostKeys := rfl
@[simp] theorem State.rewind_getV (s : State) (q : Reg) : (s.rewind).getV q = s.getV q := rfl
@[simp] theorem State.rewind_pixel (s : State) (x0 : Fin 64) (y0 : Fin 32) : (s.rewind).pixel x0 y0 = s.pixel x0 y0 := rfl
@[simp] theorem State.rewind_byteAt (s : State) (a0 : Nat) : (s.rewind).byteAt a0 = s.byteAt a0 := rfl
@[simp] theorem State.rewind_pressed (s : State) (k0 : Key) : (s.rewind).pressed k0 = s.pressed k0 := rfl
@[simp] theorem State.rewind_ea (s : State) (n : Nat) : (s.rewind).ea n = s.ea n := rfl
@[simp] theorem State.rewind_ipf (s : State) : (s.rewind).ipf = s.ipf := rfl

/-! ### requestRedraw -/

@[simp] theorem State.requestRedraw_memory (s : State) : (s.requestRedraw).memory = s.memory := rfl
@[simp] theorem State.requestRedraw_v (s : State) : (s.requestRedraw).v = s.v := rfl
@[simp] theorem State.requestRedraw_i (s : State) : (s.requestRedraw).i = s.i := rfl
@[simp] theorem State.requestRedraw_pc (s : State) : (s.requestRedraw).pc = s.pc := rfl
@[simp] theorem State.requestRedraw_stack (s : State) : (s.requestRedraw).stack = s.stack := rfl
@[simp] theorem State.requestRedraw_sp (s : State) : (s.requestRedraw).sp = s.sp := rfl
@[simp] theorem State.requestRedraw_dt (s : State) : (s.requestRedraw).dt = s.dt := rfl
@[simp] theorem State.requestRedraw_st (s : State) : (s.requestRedraw).st = s.st := rfl
@[simp] theorem State.requestRedraw_keypad (s : State) : (s.requestRedraw).keypad = s.keypad := rfl
@[simp] theorem State.requestRedraw_display (s : State) : (s.requestRedraw).display = s.display := rfl
@[simp] theorem State.requestRedraw_keyWait (s : State) : (s.requestRedraw).keyWait = s.keyWait := rfl
@[simp] theorem State.requestRedraw_runState (s : State) : (s.requestRedraw).runState = s.runState := rfl
@[simp] theorem State.requestRedraw_debugEnabled (s : State) : (s.requestRedraw).debugEnabled = s.debugEnabled := rfl
@[simp] theorem State.requestRedraw_mode (s : State) : (s.requestRedraw).mode = s.mode := rfl
@[simp] theorem State.requestRedraw_fault (s : State) : (s.requestRedraw).fault = s.fault := rfl
@[simp] theorem State.requestRedraw_call (s : State) : (s.requestRedraw).call = { s.call with redraw := true } := rfl
@[simp] theorem State.requestRedraw_batch (s : State) : (s.requestRedraw).batch = s.batch := rfl
@[simp] theorem State.requestRedraw_events (s : State) : (s.requestRedraw).events = s.events := rfl
@[simp] theorem State.requestRedraw_inputs (s : State) : (s.requestRedraw).inputs = s.inputs := rfl
@[simp] theorem State.requestRedraw_image (s : State) : (s.requestRedraw).image = s.image := rfl
@[simp] theorem State.requestRedraw_draws (s : State) : (s.requestRedraw).draws = s.draws := rfl
@[simp] theorem State.requestRedraw_config (s : State) : (s.requestRedraw).config = s.config := rfl
@[simp] theorem State.requestRedraw_hostKeys (s : State) : (s.requestRedraw).hostKeys = s.hostKeys := rfl
@[simp] theorem State.requestRedraw_getV (s : State) (q : Reg) : (s.requestRedraw).getV q = s.getV q := rfl
@[simp] theorem State.requestRedraw_pixel (s : State) (x0 : Fin 64) (y0 : Fin 32) : (s.requestRedraw).pixel x0 y0 = s.pixel x0 y0 := rfl
@[simp] theorem State.requestRedraw_byteAt (s : State) (a0 : Nat) : (s.requestRedraw).byteAt a0 = s.byteAt a0 := rfl
@[simp] theorem State.requestRedraw_pressed (s : State) (k0 : Key) : (s.requestRedraw).pressed k0 = s.pressed k0 := rfl
@[simp] theorem State.requestRedraw_ea (s : State) (n : Nat) : (s.requestRedraw).ea n = s.ea n := rfl
@[simp] theorem State.requestRedraw_ipf (s : State) : (s.requestRedraw).ipf = s.ipf := rfl

/-! ### signal -/

@[simp] theorem State.signal_memory (s : State) (k : DiagKind) (p w : Word) : (s.signal k p w).memory = s.memory := rfl
@[simp] theorem State.signal_v (s : State) (k : DiagKind) (p w : Word) : (s.signal k p w).v = s.v := rfl
@[simp] theorem State.signal_i (s : State) (k : DiagKind) (p w : Word) : (s.signal k p w).i = s.i := rfl
@[simp] theorem State.signal_pc (s : State) (k : DiagKind) (p w : Word) : (s.signal k p w).pc = s.pc := rfl
@[simp] theorem State.signal_stack (s : State) (k : DiagKind) (p w : Word) : (s.signal k p w).stack = s.stack := rfl
@[simp] theorem State.signal_sp (s : State) (k : DiagKind) (p w : Word) : (s.signal k p w).sp = s.sp := rfl
@[simp] theorem State.signal_dt (s : State) (k : DiagKind) (p w : Word) : (s.signal k p w).dt = s.dt := rfl
@[simp] theorem State.signal_st (s : State) (k : DiagKind) (p w : Word) : (s.signal k p w).st = s.st := rfl
@[simp] theorem State.signal_keypad (s : State) (k : DiagKind) (p w : Word) : (s.signal k p w).keypad = s.keypad := rfl
@[simp] theorem State.signal_display (s : State) (k : DiagKind) (p w : Word) : (s.signal k p w).display = s.display := rfl
@[simp] theorem State.signal_keyWait (s : State) (k : DiagKind) (p w : Word) : (s.signal k p w).keyWait = s.keyWait := rfl
@[simp] theorem State.signal_runState (s : State) (k : DiagKind) (p w : Word) : (s.signal k p w).runState = s.runState := rfl
@[simp] theorem State.signal_debugEnabled (s : State) (k : DiagKind) (p w : Word) : (s.signal k p w).debugEnabled = s.debugEnabled := rfl
@[simp] theorem State.signal_mode (s : State) (k : DiagKind) (p w : Word) : (s.signal k p w).mode = s.mode := rfl
@[simp] theorem State.signal_fault (s : State) (k : DiagKind) (p w : Word) : (s.signal k p w).fault = s.fault := rfl
@[simp] theorem State.signal_call (s : State) (k : DiagKind) (p w : Word) : (s.signal k p w).call = { s.call with diag := some { kind := k, pc := p, word := w } } := rfl
@[simp] theorem State.signal_batch (s : State) (k : DiagKind) (p w : Word) : (s.signal k p w).batch = s.batch := rfl
@[simp] theorem State.signal_events (s : State) (k : DiagKind) (p w : Word) : (s.signal k p w).events = s.events := rfl
@[simp] theorem State.signal_inputs (s : State) (k : DiagKind) (p w : Word) : (s.signal k p w).inputs = s.inputs := rfl
@[simp] theorem State.signal_image (s : State) (k : DiagKind) (p w : Word) : (s.signal k p w).image = s.image := rfl
@[simp] theorem State.signal_draws (s : State) (k : DiagKind) (p w : Word) : (s.signal k p w).draws = s.draws := rfl
@[simp] theorem State.signal_config (s : State) (k : DiagKind) (p w : Word) : (s.signal k p w).config = s.config := rfl
@[simp] theorem State.signal_hostKeys (s : State) (k : DiagKind) (p w : Word) : (s.signal k p w).hostKeys = s.hostKeys := rfl
@[simp] theorem State.signal_getV (s : State) (k : DiagKind) (p w : Word) (q : Reg) : (s.signal k p w).getV q = s.getV q := rfl
@[simp] theorem State.signal_pixel (s : State) (k : DiagKind) (p w : Word) (x0 : Fin 64) (y0 : Fin 32) : (s.signal k p w).pixel x0 y0 = s.pixel x0 y0 := rfl
@[simp] theorem State.signal_byteAt (s : State) (k : DiagKind) (p w : Word) (a0 : Nat) : (s.signal k p w).byteAt a0 = s.byteAt a0 := rfl
@[simp] theorem State.signal_pressed (s : State) (k : DiagKind) (p w : Word) (k0 : Key) : (s.signal k p w).pressed k0 = s.pressed k0 := rfl
@[simp] theorem State.signal_ea (s : State) (k : DiagKind) (p w : Word) (n : Nat) : (s.signal k p w).ea n = s.ea n := rfl
@[simp] theorem State.signal_ipf (s : State) (k : DiagKind) (p w : Word) : (s.signal k p w).ipf = s.ipf := rfl

/-! ### takeFault -/

@[simp] theorem State.takeFault_memory (s : State) (w : Option Word) (r : Raise) : (s.takeFault w r).memory = s.memory := rfl
@[simp] theorem State.takeFault_v (s : State) (w : Option Word) (r : Raise) : (s.takeFault w r).v = s.v := rfl
@[simp] theorem State.takeFault_i (s : State) (w : Option Word) (r : Raise) : (s.takeFault w r).i = s.i := rfl
@[simp] theorem State.takeFault_pc (s : State) (w : Option Word) (r : Raise) : (s.takeFault w r).pc = s.pc := rfl
@[simp] theorem State.takeFault_stack (s : State) (w : Option Word) (r : Raise) : (s.takeFault w r).stack = s.stack := rfl
@[simp] theorem State.takeFault_sp (s : State) (w : Option Word) (r : Raise) : (s.takeFault w r).sp = s.sp := rfl
@[simp] theorem State.takeFault_dt (s : State) (w : Option Word) (r : Raise) : (s.takeFault w r).dt = s.dt := rfl
@[simp] theorem State.takeFault_st (s : State) (w : Option Word) (r : Raise) : (s.takeFault w r).st = s.st := rfl
@[simp] theorem State.takeFault_keypad (s : State) (w : Option Word) (r : Raise) : (s.takeFault w r).keypad = s.keypad := rfl
@[simp] theorem State.takeFault_display (s : State) (w : Option Word) (r : Raise) : (s.takeFault w r).display = s.display := rfl
@[simp] theorem State.takeFault_keyWait (s : State) (w : Option Word) (r : Raise) : (s.takeFault w r).keyWait = s.keyWait := rfl
@[simp] theorem State.takeFault_runState (s : State) (w : Option Word) (r : Raise) : (s.takeFault w r).runState = .halted := rfl
@[simp] theorem State.takeFault_debugEnabled (s : State) (w : Option Word) (r : Raise) : (s.takeFault w r).debugEnabled = s.debugEnabled := rfl
@[simp] theorem State.takeFault_mode (s : State) (w : Option Word) (r : Raise) : (s.takeFault w r).mode = s.mode := rfl
@[simp] theorem State.takeFault_fault (s : State) (w : Option Word) (r : Raise) : (s.takeFault w r).fault = some { kind := r.kind, pc := s.pc, word := w, addr := r.addr } := rfl
@[simp] theorem State.takeFault_call (s : State) (w : Option Word) (r : Raise) : (s.takeFault w r).call = CallOutput.none := rfl
@[simp] theorem State.takeFault_batch (s : State) (w : Option Word) (r : Raise) : (s.takeFault w r).batch = s.batch := rfl
@[simp] theorem State.takeFault_events (s : State) (w : Option Word) (r : Raise) : (s.takeFault w r).events = s.events := rfl
@[simp] theorem State.takeFault_inputs (s : State) (w : Option Word) (r : Raise) : (s.takeFault w r).inputs = s.inputs := rfl
@[simp] theorem State.takeFault_image (s : State) (w : Option Word) (r : Raise) : (s.takeFault w r).image = s.image := rfl
@[simp] theorem State.takeFault_draws (s : State) (w : Option Word) (r : Raise) : (s.takeFault w r).draws = s.draws := rfl
@[simp] theorem State.takeFault_config (s : State) (w : Option Word) (r : Raise) : (s.takeFault w r).config = s.config := rfl
@[simp] theorem State.takeFault_hostKeys (s : State) (w : Option Word) (r : Raise) : (s.takeFault w r).hostKeys = s.hostKeys := rfl
@[simp] theorem State.takeFault_getV (s : State) (w : Option Word) (r : Raise) (q : Reg) : (s.takeFault w r).getV q = s.getV q := rfl
@[simp] theorem State.takeFault_pixel (s : State) (w : Option Word) (r : Raise) (x0 : Fin 64) (y0 : Fin 32) : (s.takeFault w r).pixel x0 y0 = s.pixel x0 y0 := rfl
@[simp] theorem State.takeFault_byteAt (s : State) (w : Option Word) (r : Raise) (a0 : Nat) : (s.takeFault w r).byteAt a0 = s.byteAt a0 := rfl
@[simp] theorem State.takeFault_pressed (s : State) (w : Option Word) (r : Raise) (k0 : Key) : (s.takeFault w r).pressed k0 = s.pressed k0 := rfl
@[simp] theorem State.takeFault_ea (s : State) (w : Option Word) (r : Raise) (n : Nat) : (s.takeFault w r).ea n = s.ea n := rfl
@[simp] theorem State.takeFault_ipf (s : State) (w : Option Word) (r : Raise) : (s.takeFault w r).ipf = s.ipf := rfl

/-! ### setByte -/

@[simp] theorem State.setByte_memory (s : State) (a : Nat) (b : Byte) : (s.setByte a b).memory = Memory.write s.config.font s.memory a b := rfl
@[simp] theorem State.setByte_v (s : State) (a : Nat) (b : Byte) : (s.setByte a b).v = s.v := rfl
@[simp] theorem State.setByte_i (s : State) (a : Nat) (b : Byte) : (s.setByte a b).i = s.i := rfl
@[simp] theorem State.setByte_pc (s : State) (a : Nat) (b : Byte) : (s.setByte a b).pc = s.pc := rfl
@[simp] theorem State.setByte_stack (s : State) (a : Nat) (b : Byte) : (s.setByte a b).stack = s.stack := rfl
@[simp] theorem State.setByte_sp (s : State) (a : Nat) (b : Byte) : (s.setByte a b).sp = s.sp := rfl
@[simp] theorem State.setByte_dt (s : State) (a : Nat) (b : Byte) : (s.setByte a b).dt = s.dt := rfl
@[simp] theorem State.setByte_st (s : State) (a : Nat) (b : Byte) : (s.setByte a b).st = s.st := rfl
@[simp] theorem State.setByte_keypad (s : State) (a : Nat) (b : Byte) : (s.setByte a b).keypad = s.keypad := rfl
@[simp] theorem State.setByte_display (s : State) (a : Nat) (b : Byte) : (s.setByte a b).display = s.display := rfl
@[simp] theorem State.setByte_keyWait (s : State) (a : Nat) (b : Byte) : (s.setByte a b).keyWait = s.keyWait := rfl
@[simp] theorem State.setByte_runState (s : State) (a : Nat) (b : Byte) : (s.setByte a b).runState = s.runState := rfl
@[simp] theorem State.setByte_debugEnabled (s : State) (a : Nat) (b : Byte) : (s.setByte a b).debugEnabled = s.debugEnabled := rfl
@[simp] theorem State.setByte_mode (s : State) (a : Nat) (b : Byte) : (s.setByte a b).mode = s.mode := rfl
@[simp] theorem State.setByte_fault (s : State) (a : Nat) (b : Byte) : (s.setByte a b).fault = s.fault := rfl
@[simp] theorem State.setByte_call (s : State) (a : Nat) (b : Byte) : (s.setByte a b).call = s.call := rfl
@[simp] theorem State.setByte_batch (s : State) (a : Nat) (b : Byte) : (s.setByte a b).batch = s.batch := rfl
@[simp] theorem State.setByte_events (s : State) (a : Nat) (b : Byte) : (s.setByte a b).events = s.events := rfl
@[simp] theorem State.setByte_inputs (s : State) (a : Nat) (b : Byte) : (s.setByte a b).inputs = s.inputs := rfl
@[simp] theorem State.setByte_image (s : State) (a : Nat) (b : Byte) : (s.setByte a b).image = s.image := rfl
@[simp] theorem State.setByte_draws (s : State) (a : Nat) (b : Byte) : (s.setByte a b).draws = s.draws := rfl
@[simp] theorem State.setByte_config (s : State) (a : Nat) (b : Byte) : (s.setByte a b).config = s.config := rfl
@[simp] theorem State.setByte_hostKeys (s : State) (a : Nat) (b : Byte) : (s.setByte a b).hostKeys = s.hostKeys := rfl
@[simp] theorem State.setByte_getV (s : State) (a : Nat) (b : Byte) (q : Reg) : (s.setByte a b).getV q = s.getV q := rfl
@[simp] theorem State.setByte_pixel (s : State) (a : Nat) (b : Byte) (x0 : Fin 64) (y0 : Fin 32) : (s.setByte a b).pixel x0 y0 = s.pixel x0 y0 := rfl
@[simp] theorem State.setByte_pressed (s : State) (a : Nat) (b : Byte) (k0 : Key) : (s.setByte a b).pressed k0 = s.pressed k0 := rfl
@[simp] theorem State.setByte_ea (s : State) (a : Nat) (b : Byte) (n : Nat) : (s.setByte a b).ea n = s.ea n := rfl
@[simp] theorem State.setByte_ipf (s : State) (a : Nat) (b : Byte) : (s.setByte a b).ipf = s.ipf := rfl

/-! ### setPixel -/

@[simp] theorem State.setPixel_memory (s : State) (x : Fin 64) (y : Fin 32) (b : Bool) : (s.setPixel x y b).memory = s.memory := rfl
@[simp] theorem State.setPixel_v (s : State) (x : Fin 64) (y : Fin 32) (b : Bool) : (s.setPixel x y b).v = s.v := rfl
@[simp] theorem State.setPixel_i (s : State) (x : Fin 64) (y : Fin 32) (b : Bool) : (s.setPixel x y b).i = s.i := rfl
@[simp] theorem State.setPixel_pc (s : State) (x : Fin 64) (y : Fin 32) (b : Bool) : (s.setPixel x y b).pc = s.pc := rfl
@[simp] theorem State.setPixel_stack (s : State) (x : Fin 64) (y : Fin 32) (b : Bool) : (s.setPixel x y b).stack = s.stack := rfl
@[simp] theorem State.setPixel_sp (s : State) (x : Fin 64) (y : Fin 32) (b : Bool) : (s.setPixel x y b).sp = s.sp := rfl
@[simp] theorem State.setPixel_dt (s : State) (x : Fin 64) (y : Fin 32) (b : Bool) : (s.setPixel x y b).dt = s.dt := rfl
@[simp] theorem State.setPixel_st (s : State) (x : Fin 64) (y : Fin 32) (b : Bool) : (s.setPixel x y b).st = s.st := rfl
@[simp] theorem State.setPixel_keypad (s : State) (x : Fin 64) (y : Fin 32) (b : Bool) : (s.setPixel x y b).keypad = s.keypad := rfl
@[simp] theorem State.setPixel_display (s : State) (x : Fin 64) (y : Fin 32) (b : Bool) : (s.setPixel x y b).display = s.display.put x y b := rfl
@[simp] theorem State.setPixel_keyWait (s : State) (x : Fin 64) (y : Fin 32) (b : Bool) : (s.setPixel x y b).keyWait = s.keyWait := rfl
@[simp] theorem State.setPixel_runState (s : State) (x : Fin 64) (y : Fin 32) (b : Bool) : (s.setPixel x y b).runState = s.runState := rfl
@[simp] theorem State.setPixel_debugEnabled (s : State) (x : Fin 64) (y : Fin 32) (b : Bool) : (s.setPixel x y b).debugEnabled = s.debugEnabled := rfl
@[simp] theorem State.setPixel_mode (s : State) (x : Fin 64) (y : Fin 32) (b : Bool) : (s.setPixel x y b).mode = s.mode := rfl
@[simp] theorem State.setPixel_fault (s : State) (x : Fin 64) (y : Fin 32) (b : Bool) : (s.setPixel x y b).fault = s.fault := rfl
@[simp] theorem State.setPixel_call (s : State) (x : Fin 64) (y : Fin 32) (b : Bool) : (s.setPixel x y b).call = s.call := rfl
@[simp] theorem State.setPixel_batch (s : State) (x : Fin 64) (y : Fin 32) (b : Bool) : (s.setPixel x y b).batch = s.batch := rfl
@[simp] theorem State.setPixel_events (s : State) (x : Fin 64) (y : Fin 32) (b : Bool) : (s.setPixel x y b).events = s.events := rfl
@[simp] theorem State.setPixel_inputs (s : State) (x : Fin 64) (y : Fin 32) (b : Bool) : (s.setPixel x y b).inputs = s.inputs := rfl
@[simp] theorem State.setPixel_image (s : State) (x : Fin 64) (y : Fin 32) (b : Bool) : (s.setPixel x y b).image = s.image := rfl
@[simp] theorem State.setPixel_draws (s : State) (x : Fin 64) (y : Fin 32) (b : Bool) : (s.setPixel x y b).draws = s.draws := rfl
@[simp] theorem State.setPixel_config (s : State) (x : Fin 64) (y : Fin 32) (b : Bool) : (s.setPixel x y b).config = s.config := rfl
@[simp] theorem State.setPixel_hostKeys (s : State) (x : Fin 64) (y : Fin 32) (b : Bool) : (s.setPixel x y b).hostKeys = s.hostKeys := rfl
@[simp] theorem State.setPixel_getV (s : State) (x : Fin 64) (y : Fin 32) (b : Bool) (q : Reg) : (s.setPixel x y b).getV q = s.getV q := rfl
@[simp] theorem State.setPixel_byteAt (s : State) (x : Fin 64) (y : Fin 32) (b : Bool) (a0 : Nat) : (s.setPixel x y b).byteAt a0 = s.byteAt a0 := rfl
@[simp] theorem State.setPixel_pressed (s : State) (x : Fin 64) (y : Fin 32) (b : Bool) (k0 : Key) : (s.setPixel x y b).pressed k0 = s.pressed k0 := rfl
@[simp] theorem State.setPixel_ea (s : State) (x : Fin 64) (y : Fin 32) (b : Bool) (n : Nat) : (s.setPixel x y b).ea n = s.ea n := rfl
@[simp] theorem State.setPixel_ipf (s : State) (x : Fin 64) (y : Fin 32) (b : Bool) : (s.setPixel x y b).ipf = s.ipf := rfl

/-! ### emit -/

@[simp] theorem State.emit_memory (s : State) (e : Event) : (s.emit e).memory = s.memory := rfl
@[simp] theorem State.emit_v (s : State) (e : Event) : (s.emit e).v = s.v := rfl
@[simp] theorem State.emit_i (s : State) (e : Event) : (s.emit e).i = s.i := rfl
@[simp] theorem State.emit_pc (s : State) (e : Event) : (s.emit e).pc = s.pc := rfl
@[simp] theorem State.emit_stack (s : State) (e : Event) : (s.emit e).stack = s.stack := rfl
@[simp] theorem State.emit_sp (s : State) (e : Event) : (s.emit e).sp = s.sp := rfl
@[simp] theorem State.emit_dt (s : State) (e : Event) : (s.emit e).dt = s.dt := rfl
@[simp] theorem State.emit_st (s : State) (e : Event) : (s.emit e).st = s.st := rfl
@[simp] theorem State.emit_keypad (s : State) (e : Event) : (s.emit e).keypad = s.keypad := rfl
@[simp] theorem State.emit_display (s : State) (e : Event) : (s.emit e).display = s.display := rfl
@[simp] theorem State.emit_keyWait (s : State) (e : Event) : (s.emit e).keyWait = s.keyWait := rfl
@[simp] theorem State.emit_runState (s : State) (e : Event) : (s.emit e).runState = s.runState := rfl
@[simp] theorem State.emit_debugEnabled (s : State) (e : Event) : (s.emit e).debugEnabled = s.debugEnabled := rfl
@[simp] theorem State.emit_mode (s : State) (e : Event) : (s.emit e).mode = s.mode := rfl
@[simp] theorem State.emit_fault (s : State) (e : Event) : (s.emit e).fault = s.fault := rfl
@[simp] theorem State.emit_call (s : State) (e : Event) : (s.emit e).call = s.call := rfl
@[simp] theorem State.emit_batch (s : State) (e : Event) : (s.emit e).batch = s.batch := rfl
@[simp] theorem State.emit_events (s : State) (e : Event) : (s.emit e).events = e :: s.events := rfl
@[simp] theorem State.emit_inputs (s : State) (e : Event) : (s.emit e).inputs = s.inputs := rfl
@[simp] theorem State.emit_image (s : State) (e : Event) : (s.emit e).image = s.image := rfl
@[simp] theorem State.emit_draws (s : State) (e : Event) : (s.emit e).draws = s.draws := rfl
@[simp] theorem State.emit_config (s : State) (e : Event) : (s.emit e).config = s.config := rfl
@[simp] theorem State.emit_hostKeys (s : State) (e : Event) : (s.emit e).hostKeys = s.hostKeys := rfl
@[simp] theorem State.emit_getV (s : State) (e : Event) (q : Reg) : (s.emit e).getV q = s.getV q := rfl
@[simp] theorem State.emit_pixel (s : State) (e : Event) (x0 : Fin 64) (y0 : Fin 32) : (s.emit e).pixel x0 y0 = s.pixel x0 y0 := rfl
@[simp] theorem State.emit_byteAt (s : State) (e : Event) (a0 : Nat) : (s.emit e).byteAt a0 = s.byteAt a0 := rfl
@[simp] theorem State.emit_pressed (s : State) (e : Event) (k0 : Key) : (s.emit e).pressed k0 = s.pressed k0 := rfl
@[simp] theorem State.emit_ea (s : State) (e : Event) (n : Nat) : (s.emit e).ea n = s.ea n := rfl
@[simp] theorem State.emit_ipf (s : State) (e : Event) : (s.emit e).ipf = s.ipf := rfl

/-! ### tick -/

@[simp] theorem State.tick_memory (s : State) : (s.tick).memory = s.memory := rfl
@[simp] theorem State.tick_v (s : State) : (s.tick).v = s.v := rfl
@[simp] theorem State.tick_i (s : State) : (s.tick).i = s.i := rfl
@[simp] theorem State.tick_pc (s : State) : (s.tick).pc = s.pc := rfl
@[simp] theorem State.tick_stack (s : State) : (s.tick).stack = s.stack := rfl
@[simp] theorem State.tick_sp (s : State) : (s.tick).sp = s.sp := rfl
@[simp] theorem State.tick_dt (s : State) : (s.tick).dt = decToZero s.dt := rfl
@[simp] theorem State.tick_st (s : State) : (s.tick).st = decToZero s.st := rfl
@[simp] theorem State.tick_keypad (s : State) : (s.tick).keypad = s.keypad := rfl
@[simp] theorem State.tick_display (s : State) : (s.tick).display = s.display := rfl
@[simp] theorem State.tick_keyWait (s : State) : (s.tick).keyWait = s.keyWait := rfl
@[simp] theorem State.tick_runState (s : State) : (s.tick).runState = s.runState := rfl
@[simp] theorem State.tick_debugEnabled (s : State) : (s.tick).debugEnabled = s.debugEnabled := rfl
@[simp] theorem State.tick_mode (s : State) : (s.tick).mode = s.mode := rfl
@[simp] theorem State.tick_fault (s : State) : (s.tick).fault = s.fault := rfl
@[simp] theorem State.tick_call (s : State) : (s.tick).call = s.call := rfl
@[simp] theorem State.tick_batch (s : State) : (s.tick).batch = s.batch := rfl
@[simp] theorem State.tick_events (s : State) : (s.tick).events = s.events := rfl
@[simp] theorem State.tick_inputs (s : State) : (s.tick).inputs = s.inputs := rfl
@[simp] theorem State.tick_image (s : State) : (s.tick).image = s.image := rfl
@[simp] theorem State.tick_draws (s : State) : (s.tick).draws = s.draws := rfl
@[simp] theorem State.tick_config (s : State) : (s.tick).config = s.config := rfl
@[simp] theorem State.tick_hostKeys (s : State) : (s.tick).hostKeys = s.hostKeys := rfl
@[simp] theorem State.tick_getV (s : State) (q : Reg) : (s.tick).getV q = s.getV q := rfl
@[simp] theorem State.tick_pixel (s : State) (x0 : Fin 64) (y0 : Fin 32) : (s.tick).pixel x0 y0 = s.pixel x0 y0 := rfl
@[simp] theorem State.tick_byteAt (s : State) (a0 : Nat) : (s.tick).byteAt a0 = s.byteAt a0 := rfl
@[simp] theorem State.tick_pressed (s : State) (k0 : Key) : (s.tick).pressed k0 = s.pressed k0 := rfl
@[simp] theorem State.tick_ea (s : State) (n : Nat) : (s.tick).ea n = s.ea n := rfl
@[simp] theorem State.tick_ipf (s : State) : (s.tick).ipf = s.ipf := rfl

/-! ### readKeypad -/

@[simp] theorem State.readKeypad_memory (s : State) : (s.readKeypad).memory = s.memory := rfl
@[simp] theorem State.readKeypad_v (s : State) : (s.readKeypad).v = s.v := rfl
@[simp] theorem State.readKeypad_i (s : State) : (s.readKeypad).i = s.i := rfl
@[simp] theorem State.readKeypad_pc (s : State) : (s.readKeypad).pc = s.pc := rfl
@[simp] theorem State.readKeypad_stack (s : State) : (s.readKeypad).stack = s.stack := rfl
@[simp] theorem State.readKeypad_sp (s : State) : (s.readKeypad).sp = s.sp := rfl
@[simp] theorem State.readKeypad_dt (s : State) : (s.readKeypad).dt = s.dt := rfl
@[simp] theorem State.readKeypad_st (s : State) : (s.readKeypad).st = s.st := rfl
@[simp] theorem State.readKeypad_keypad (s : State) : (s.readKeypad).keypad = s.hostKeys := rfl
@[simp] theorem State.readKeypad_display (s : State) : (s.readKeypad).display = s.display := rfl
@[simp] theorem State.readKeypad_keyWait (s : State) : (s.readKeypad).keyWait = s.keyWait := rfl
@[simp] theorem State.readKeypad_runState (s : State) : (s.readKeypad).runState = s.runState := rfl
@[simp] theorem State.readKeypad_debugEnabled (s : State) : (s.readKeypad).debugEnabled = s.debugEnabled := rfl
@[simp] theorem State.readKeypad_mode (s : State) : (s.readKeypad).mode = s.mode := rfl
@[simp] theorem State.readKeypad_fault (s : State) : (s.readKeypad).fault = s.fault := rfl
@[simp] theorem State.readKeypad_call (s : State) : (s.readKeypad).call = s.call := rfl
@[simp] theorem State.readKeypad_batch (s : State) : (s.readKeypad).batch = s.batch := rfl
@[simp] theorem State.readKeypad_events (s : State) : (s.readKeypad).events = s.events := rfl
@[simp] theorem State.readKeypad_inputs (s : State) : (s.readKeypad).inputs = s.inputs := rfl
@[simp] theorem State.readKeypad_image (s : State) : (s.readKeypad).image = s.image := rfl
@[simp] theorem State.readKeypad_draws (s : State) : (s.readKeypad).draws = s.draws := rfl
@[simp] theorem State.readKeypad_config (s : State) : (s.readKeypad).config = s.config := rfl
@[simp] theorem State.readKeypad_hostKeys (s : State) : (s.readKeypad).hostKeys = s.hostKeys := rfl
@[simp] theorem State.readKeypad_getV (s : State) (q : Reg) : (s.readKeypad).getV q = s.getV q := rfl
@[simp] theorem State.readKeypad_pixel (s : State) (x0 : Fin 64) (y0 : Fin 32) : (s.readKeypad).pixel x0 y0 = s.pixel x0 y0 := rfl
@[simp] theorem State.readKeypad_byteAt (s : State) (a0 : Nat) : (s.readKeypad).byteAt a0 = s.byteAt a0 := rfl
@[simp] theorem State.readKeypad_pressed (s : State) (k0 : Key) : (s.readKeypad).pressed k0 = s.hostKeys[k0] := rfl
@[simp] theorem State.readKeypad_ea (s : State) (n : Nat) : (s.readKeypad).ea n = s.ea n := rfl
@[simp] theorem State.readKeypad_ipf (s : State) : (s.readKeypad).ipf = s.ipf := rfl

end Sys2Proof.Machine
end

