-- ==== Sys2Proof/Laws/Ops.lean ====
section
/-! SUPPORT. What each shared operation does, said once: registers, pixels, memory, fetch, stack, the ends of an instruction. -/

namespace Sys2Proof.Machine

/-! ### Registers and flags -/

@[simp] theorem State.getV_setV (s : State) (r q : Reg) (b : Byte) :
    (s.setV r b).getV q = if r = q then b else s.getV q := by
  simp [State.getV, State.setV, Vector.getElem_set, Fin.ext_iff]

@[simp] theorem State.getV_setFlag (s : State) (q : Reg) (c : Bool) :
    (s.setFlag c).getV q = if vf = q then flagByte c else s.getV q := by
  simp [State.setFlag]

@[simp] theorem flagByte_toNat (c : Bool) : (flagByte c).toNat = if c then 1 else 0 := by
  cases c <;> rfl

theorem sum8_toNat (a b : Byte) : (sum8 a b).toNat = (a.toNat + b.toNat) % 256 := by
  simp [sum8, BitVec.toNat_ofNat]

theorem diff8_toNat (a b : Byte) : (diff8 a b).toNat = (256 + a.toNat - b.toNat) % 256 := by
  have ha := a.isLt
  have hb := b.isLt
  simp only [diff8, BitVec.toNat_ofInt]
  omega

/-! ### Skips -/

@[simp] theorem State.skipIf_true (s : State) : s.skipIf true = s.skip := rfl
@[simp] theorem State.skipIf_false (s : State) : s.skipIf false = s := rfl

/-- A conditional skip changes PC only. -/
theorem State.skipIf_eq (s : State) (c : Bool) : s.skipIf c = s.setPc (if c then s.pc + 2 else s.pc) := by
  cases c <;> rfl

/-! ### Pixels -/

@[simp] theorem Display.get_put (d : Display) (x x' : Fin 64) (y y' : Fin 32) (b : Bool) :
    (d.put x y b).get x' y' = if x = x' ∧ y = y' then b else d.get x' y' := by
  simp only [Display.get, Display.put, Fin.getElem_fin, Vector.getElem_set]
  by_cases hy : y.val = y'.val
  · by_cases hx : x.val = x'.val <;> simp [hy, hx, Fin.ext_iff]
  · simp [hy, Fin.ext_iff]

@[simp] theorem State.pixel_setPixel (s : State) (x x' : Fin 64) (y y' : Fin 32) (b : Bool) :
    (s.setPixel x y b).pixel x' y' = if x = x' ∧ y = y' then b else s.pixel x' y' := by
  simp [State.pixel]

@[simp] theorem Display.get_clear (x : Fin 64) (y : Fin 32) : Display.clear.get x y = false := by
  simp [Display.clear, Display.get]

/-- Two framebuffers with equal pixels are equal. -/
theorem Display.ext_get {d e : Display} (h : ∀ x y, d.get x y = e.get x y) : d = e := by
  apply Vector.ext
  intro y hy
  apply Vector.ext
  intro x hx
  exact h ⟨x, hx⟩ ⟨y, hy⟩

/-! ### Memory -/

variable (font : Vector Byte 80)

/-- A lookup through the cell of one address: that address reads the byte, every other reads the rest. -/
theorem Memory.read_cell_append (cs : List Host.Cell) (a b : Nat) (v : Byte) :
    Memory.read font (Memory.cell font a v ++ cs) b
      = if b = a ∧ v ≠ Memory.base font a then v else Memory.read font cs b := by
  by_cases hv : v = Memory.base font a
  · simp [Memory.cell, hv]
  · by_cases hb : b = a
    · simp [Memory.cell, hv, hb, Memory.read]
    · simp [Memory.cell, hv, hb, Ne.symm hb, Memory.read]

/-- In a memory whose cells start at `lo`, an address below `lo` reads as unlisted. -/
theorem Memory.read_below : ∀ (m : List Host.Cell) (lo a : Nat), Memory.wfFrom font lo m = true → a < lo →
    Memory.read font m a = Memory.base font a
  | [], _, _, _, _ => rfl
  | c :: cs, lo, a, h, ha => by
    simp only [Memory.wfFrom, Bool.and_eq_true, decide_eq_true_eq] at h
    have hne : c.1 ≠ a := by omega
    simp only [Memory.read, hne, if_false]
    exact Memory.read_below cs (c.1 + 1) a h.2 (by omega)

/-- Read after write, same address. -/
theorem Memory.read_write_same : ∀ (m : List Host.Cell) (lo a : Nat) (b : Byte), Memory.wfFrom font lo m = true →
    Memory.read font (Memory.write font m a b) a = b
  | [], _, a, b, _ => by
    have := Memory.read_cell_append font [] a a b
    simp only [List.append_nil] at this
    rw [Memory.write, this]
    by_cases hb : b = Memory.base font a <;> simp [hb, Memory.read]
  | c :: cs, lo, a, b, h => by
    have h' := h
    simp only [Memory.wfFrom, Bool.and_eq_true, decide_eq_true_eq] at h'
    simp only [Memory.write]
    split
    · rw [Memory.read_cell_append]
      by_cases hb : b = Memory.base font a
      · have : Memory.wfFrom font c.1 (c :: cs) = true := by
          simp [Memory.wfFrom, h'.1.1.2, h'.1.2, h'.2]
        simp [hb, Memory.read_below font (c :: cs) c.1 a this (by omega)]
      · simp [hb]
    · split
      · rw [Memory.read_cell_append]
        by_cases hb : b = Memory.base font a
        · simp [hb, Memory.read_below font cs (c.1 + 1) a h'.2 (by omega)]
        · simp [hb]
      · have hne : c.1 ≠ a := by omega
        simp only [Memory.read, hne, if_false]
        exact Memory.read_write_same cs (c.1 + 1) a b h'.2

/-- Read after write, another address: any list of cells. -/
theorem Memory.read_write_other : ∀ (m : List Host.Cell) (a a' : Nat) (b : Byte), a' ≠ a →
    Memory.read font (Memory.write font m a b) a' = Memory.read font m a'
  | [], a, a', b, h => by
    have := Memory.read_cell_append font [] a a' b
    simp only [List.append_nil] at this
    simp [Memory.write, this, h]
  | c :: cs, a, a', b, h => by
    simp only [Memory.write]
    split
    · rw [Memory.read_cell_append]; simp [h]
    · split
      · rename_i _ hac
        rw [Memory.read_cell_append]
        have : c.1 ≠ a' := by omega
        simp [h, Memory.read, this]
      · simp only [Memory.read]
        rw [Memory.read_write_other cs a a' b h]

theorem Memory.wfFrom_mono {lo lo' : Nat} {m : List Host.Cell} (h : Memory.wfFrom font lo' m = true) (hl : lo ≤ lo') :
    Memory.wfFrom font lo m = true := by
  cases m with
  | nil => rfl
  | cons c cs =>
    simp only [Memory.wfFrom, Bool.and_eq_true, decide_eq_true_eq] at h ⊢
    exact ⟨⟨⟨by omega, h.1.1.2⟩, h.1.2⟩, h.2⟩

/-- Putting the cell of an address in front of cells that start above it keeps the form. -/
theorem Memory.wfFrom_cell_append {a : Nat} {b : Byte} {cs : List Host.Cell} (ha : a < 4096)
    (h : Memory.wfFrom font (a + 1) cs = true) : Memory.wfFrom font a (Memory.cell font a b ++ cs) = true := by
  by_cases hb : b = Memory.base font a
  · simp only [Memory.cell, hb, if_true, List.nil_append]
    exact Memory.wfFrom_mono font h (by omega)
  · simp [Memory.cell, hb, Memory.wfFrom, ha, h]

/-- Every write keeps the canonical form. -/
theorem Memory.wfFrom_write : ∀ (m : List Host.Cell) (lo a : Nat) (b : Byte), Memory.wfFrom font lo m = true → lo ≤ a →
    a < 4096 → Memory.wfFrom font lo (Memory.write font m a b) = true
  | [], lo, a, b, _, hlo, ha => by
    have := Memory.wfFrom_cell_append font (b := b) (cs := []) ha rfl
    simp only [List.append_nil] at this
    exact Memory.wfFrom_mono font this hlo
  | c :: cs, lo, a, b, h, hlo, ha => by
    simp only [Memory.wfFrom, Bool.and_eq_true, decide_eq_true_eq] at h
    simp only [Memory.write]
    split
    · refine Memory.wfFrom_mono font (Memory.wfFrom_cell_append font ha ?_) hlo
      simp only [Memory.wfFrom, Bool.and_eq_true, decide_eq_true_eq]
      exact ⟨⟨⟨by omega, h.1.1.2⟩, h.1.2⟩, h.2⟩
    · split
      · rename_i _ hac
        exact Memory.wfFrom_mono font (Memory.wfFrom_cell_append font ha (by rw [hac]; exact h.2)) hlo
      · simp only [Memory.wfFrom, Bool.and_eq_true, decide_eq_true_eq]
        exact ⟨⟨⟨h.1.1.1, h.1.1.2⟩, h.1.2⟩, Memory.wfFrom_write cs (c.1 + 1) a b h.2 (by omega) ha⟩

theorem Memory.wf_write {m : List Host.Cell} {a : Nat} {b : Byte} (h : Memory.wf font m = true) (ha : a < 4096) :
    Memory.wf font (Memory.write font m a b) = true :=
  Memory.wfFrom_write font m 0 a b h (by omega) ha

/-- A placed image is canonical and starts at its address. -/
theorem Memory.wfFrom_ofImage : ∀ (bs : List Byte) (a : Nat), a + bs.length ≤ 4096 →
    Memory.wfFrom font a (Memory.ofImage font a bs) = true
  | [], _, _ => rfl
  | b :: bs, a, h => by
    simp only [List.length_cons] at h
    exact Memory.wfFrom_cell_append font (by omega) (Memory.wfFrom_ofImage bs (a + 1) (by omega))

theorem Memory.wf_ofImage {bs : List Byte} {a : Nat} (h : a + bs.length ≤ 4096) :
    Memory.wf font (Memory.ofImage font a bs) = true :=
  Memory.wfFrom_mono font (Memory.wfFrom_ofImage font bs a h) (by omega)

/-- Reset memory has the canonical form. -/
theorem State.reset_memory_wf : Memory.wf State.reset.config.font State.reset.memory = true := rfl

/-! ### Memory of the state -/

theorem State.byteAt_setByte_other (s : State) {a a' : Nat} (b : Byte) (h : a' ≠ a) : (s.setByte a b).byteAt a' = s.byteAt a' :=
  Memory.read_write_other _ _ _ _ _ h

theorem State.byteAt_setByte_same (s : State) (a : Nat) (b : Byte) (h : Memory.wf s.config.font s.memory = true) :
    (s.setByte a b).byteAt a = b :=
  Memory.read_write_same _ _ 0 _ _ h

/-- A byte read answers the byte exactly when the address exists. -/
theorem State.memRead_eq (s : State) (a : Nat) :
    s.memRead a = if a < 4096 then .ok (s.byteAt a) else .error { kind := .memRange, addr := a } := rfl

/-- A byte write answers the changed state exactly when the address exists. -/
theorem State.memWrite_eq (s : State) (a : Nat) (b : Byte) :
    s.memWrite a b = if a < 4096 then .ok (s.setByte a b) else .error { kind := .memRange, addr := a } := rfl

/-- Everything a fetch can do: the word, or the fault of the first byte out of range. -/
theorem State.fetch_eq (s : State) :
    s.fetch = if s.pc.toNat + 1 < 4096 then .ok (wordOfBytes (s.byteAt s.pc.toNat) (s.byteAt (s.pc.toNat + 1)))
      else .error { kind := .memRange, addr := max s.pc.toNat 4096 } := by
  simp only [State.fetch, State.memRead_eq]
  by_cases h1 : s.pc.toNat + 1 < 4096
  · have h0 : s.pc.toNat < 4096 := by omega
    simp [h0, h1]
  · by_cases h0 : s.pc.toNat < 4096
    · have : s.pc.toNat + 1 = 4096 := by omega
      simp [h0, this, Nat.max_eq_right (Nat.le_of_lt h0)]
    · simp only [h0, h1, if_false]
      congr 2
      omega

theorem wordOfBytes_toNat (b0 b1 : Byte) : (wordOfBytes b0 b1).toNat = b0.toNat * 256 + b1.toNat := by
  have h0 := b0.isLt
  have h1 := b1.isLt
  simp only [wordOfBytes, BitVec.toNat_append, Nat.shiftLeft_eq]
  rw [← Nat.shiftLeft_eq, ← Nat.shiftLeft_add_eq_or_of_lt (by omega), Nat.shiftLeft_eq]

/-! ### The end of an instruction -/

/-- An instruction that may raise always answers a next state: its result, or fault entry from the state before it. -/
theorem conclude_cases {i : Instr} {s t : State} {r : Attempt State} (h : conclude i s r = .next t) :
    (r = .ok t) ∨ (∃ e, r = .error e ∧ t = s.takeFault (some (encode i)) e) := by
  cases r with
  | ok u => simp only [conclude] at h; injection h with h; exact .inl (by rw [h])
  | error e => simp only [conclude] at h; injection h with h; exact .inr ⟨e, rfl, h.symm⟩

@[simp] theorem conclude_ok (i : Instr) (s t : State) : conclude i s (.ok t) = .next t := rfl
@[simp] theorem conclude_error (i : Instr) (s : State) (e : Raise) :
    conclude i s (.error e) = .next (s.takeFault (some (encode i)) e) := rfl

/-! ### The stack -/

/-- A push below 16 entries. -/
theorem State.push_some {s : State} (w : Word) (h : s.sp.val < 16) :
    s.push w = some { s with stack := s.stack.set s.sp.val w, sp := ⟨s.sp.val + 1, by omega⟩ } := by
  simp [State.push, h]

theorem State.push_none {s : State} (w : Word) (h : s.sp.val = 16) : s.push w = none := by
  simp [State.push, h]

/-- A pop from a stack that is not empty. -/
theorem State.popPc_some {s : State} (h : s.sp.val ≠ 0) :
    s.popPc = some { s with sp := ⟨s.sp.val - 1, by omega⟩, pc := s.stack[s.sp.val - 1]'(by omega) } := by
  simp only [State.popPc, h, dite_false]

theorem State.popPc_none {s : State} (h : s.sp.val = 0) : s.popPc = none := by
  simp only [State.popPc, h, dite_true]

/-! ### Block transfers -/

/-- A run of byte writes changes memory only; it succeeds exactly when every address exists, and otherwise raises MEM_RANGE at the
first that does not. -/
theorem State.writeBytes_eq (b : Byte) (bs : List Byte) : ∀ (s : State) (a : Nat),
    s.writeBytes a (b :: bs) = if a + (b :: bs).length ≤ 4096 then
        .ok { s with memory := ((b :: bs).zipIdx a).foldl (fun m p => Memory.write s.config.font m p.2 p.1) s.memory }
      else .error { kind := .memRange, addr := max a 4096 } := by
  induction bs generalizing b with
  | nil =>
    intro s a
    by_cases h : a < 4096
    · have h' : a + 1 ≤ 4096 := h
      simp [State.writeBytes, State.memWrite_eq, h, h', State.setByte]
    · have h' : ¬ a + 1 ≤ 4096 := h
      simp [State.writeBytes, State.memWrite_eq, h, h', Nat.max_eq_left (Nat.le_of_not_lt h)]
  | cons b' bs ih =>
    intro s a
    rw [State.writeBytes, State.memWrite_eq]
    by_cases h : a < 4096
    · simp only [h, if_true, ih b' (s.setByte a b) (a + 1), List.length_cons]
      by_cases h' : a + 1 + (bs.length + 1) ≤ 4096
      · have h'' : a + (bs.length + 1 + 1) ≤ 4096 := by omega
        simp [h', h'', State.setByte]
      · have h'' : ¬ a + (bs.length + 1 + 1) ≤ 4096 := by omega
        simp [h', h'', Nat.max_eq_right h, Nat.max_eq_right (Nat.le_of_lt h)]
    · have h'' : ¬ a + (b :: b' :: bs).length ≤ 4096 := by simp only [List.length_cons]; omega
      simp only [h, h'', if_false, Nat.max_eq_left (Nat.le_of_not_lt h)]

/-- A run of byte reads changes registers only; it succeeds exactly when every address exists, and otherwise raises MEM_RANGE at the
first that does not. -/
theorem State.readRegs_eq (r : Reg) (rs : List Reg) : ∀ (s : State) (a : Nat),
    s.readRegs a (r :: rs) = if a + (r :: rs).length ≤ 4096 then
        .ok (((r :: rs).zipIdx a).foldl (fun t p => t.setV p.1 (s.byteAt p.2)) s)
      else .error { kind := .memRange, addr := max a 4096 } := by
  induction rs generalizing r with
  | nil =>
    intro s a
    by_cases h : a < 4096
    · have h' : a + 1 ≤ 4096 := h
      simp [State.readRegs, State.memRead_eq, h, h']
    · have h' : ¬ a + 1 ≤ 4096 := h
      simp [State.readRegs, State.memRead_eq, h, h', Nat.max_eq_left (Nat.le_of_not_lt h)]
  | cons r' rs ih =>
    intro s a
    rw [State.readRegs, State.memRead_eq]
    by_cases h : a < 4096
    · simp only [h, if_true, ih r' (s.setV r (s.byteAt a)) (a + 1), List.length_cons]
      by_cases h' : a + 1 + (rs.length + 1) ≤ 4096
      · have h'' : a + (rs.length + 1 + 1) ≤ 4096 := by omega
        simp [h', h'']
      · have h'' : ¬ a + (rs.length + 1 + 1) ≤ 4096 := by omega
        simp [h', h'', Nat.max_eq_right h, Nat.max_eq_right (Nat.le_of_lt h)]
    · have h'' : ¬ a + (r :: r' :: rs).length ≤ 4096 := by simp only [List.length_cons]; omega
      simp only [h, h'', if_false, Nat.max_eq_left (Nat.le_of_not_lt h)]

/-- What a run of byte writes leaves: memory alone may differ, the bytes outside the run are unchanged, and over a canonical memory
the run holds the bytes written and the form is kept. -/
theorem State.writeBytes_ok : ∀ (bs : List Byte) (s t : State) (a : Nat), s.writeBytes a bs = .ok t →
    t = { s with memory := t.memory } ∧
    (∀ a', a' < a ∨ a + bs.length ≤ a' → t.byteAt a' = s.byteAt a') ∧
    (Memory.wf s.config.font s.memory = true →
      Memory.wf s.config.font t.memory = true ∧ ∀ k (h : k < bs.length), t.byteAt (a + k) = bs[k])
  | [], s, t, a, h => by
    simp only [State.writeBytes, Except.ok.injEq] at h
    subst h
    exact ⟨rfl, fun _ _ => rfl, fun hw => ⟨hw, fun k hk => absurd hk (by simp)⟩⟩
  | b :: bs, s, t, a, h => by
    rw [State.writeBytes, State.memWrite_eq] at h
    by_cases ha : a < 4096
    · simp only [ha, if_true] at h
      obtain ⟨h1, h2, h3⟩ := State.writeBytes_ok bs (s.setByte a b) t (a + 1) h
      refine ⟨by rw [h1]; rfl, fun a' ha' => ?_, fun hw => ?_⟩
      · simp only [List.length_cons] at ha'
        rw [h2 a' (by omega), State.byteAt_setByte_other s b (by omega)]
      · obtain ⟨hw', hk⟩ := h3 (Memory.wf_write _ hw ha)
        refine ⟨hw', fun k hk' => ?_⟩
        cases k with
        | zero => rw [Nat.add_zero, h2 a (by omega), State.byteAt_setByte_same s a b hw]; rfl
        | succ k =>
          have := hk k (by simpa using hk')
          rw [show a + (k + 1) = a + 1 + k by omega, this]
          rfl
    · simp [ha] at h

/-- What a run of byte reads leaves: registers outside the list are unchanged, and a list without repeats holds the bytes read. -/
theorem State.readRegs_ok : ∀ (rs : List Reg) (s t : State) (a : Nat), s.readRegs a rs = .ok t →
    t = { s with v := t.v } ∧ (∀ q, q ∉ rs → t.getV q = s.getV q) ∧
    (rs.Nodup → ∀ k (h : k < rs.length), t.getV rs[k] = s.byteAt (a + k))
  | [], s, t, a, h => by
    simp only [State.readRegs, Except.ok.injEq] at h
    subst h
    exact ⟨rfl, fun _ _ => rfl, fun _ k hk => absurd hk (by simp)⟩
  | r :: rs, s, t, a, h => by
    rw [State.readRegs, State.memRead_eq] at h
    by_cases ha : a < 4096
    · simp only [ha, if_true] at h
      obtain ⟨h1, h2, h3⟩ := State.readRegs_ok rs (s.setV r (s.byteAt a)) t (a + 1) h
      refine ⟨by rw [h1]; rfl, fun q hq => ?_, fun hn k hk => ?_⟩
      · simp only [List.mem_cons, not_or] at hq
        rw [h2 q hq.2, State.getV_setV, if_neg (Ne.symm hq.1)]
      · rw [List.nodup_cons] at hn
        cases k with
        | zero => simp only [List.getElem_cons_zero, Nat.add_zero]; rw [h2 r hn.1, State.getV_setV, if_pos rfl]
        | succ k =>
          simp only [List.getElem_cons_succ]
          rw [h3 hn.2 k (by simpa using hk), show a + (k + 1) = a + 1 + k by omega]
          rfl
    · simp [ha] at h

/-- The block V0 to VX: X + 1 registers, the k-th being Vk, none twice. -/
theorem blockTo_spec (x : Reg) : (blockTo x).length = x.val + 1 ∧ (blockTo x).Nodup ∧
    (∀ q : Reg, q ∈ blockTo x ↔ q ≤ x) ∧ ∀ k (h : k < (blockTo x).length), (blockTo x)[k].val = k := by
  revert x; decide

/-! ### Keys -/

theorem mem_allKeys (k : Key) : k ∈ allKeys := by revert k; decide

/-- No key is found exactly when none is pressed. -/
theorem State.leastPressed_none {s : State} : s.leastPressed = none ↔ ∀ k, s.pressed k = false := by
  simp [State.leastPressed, List.find?_eq_none, mem_allKeys]

/-- The key found is pressed and every lower key is not. -/
theorem State.leastPressed_some {s : State} {k : Key} (h : s.leastPressed = some k) :
    s.pressed k = true ∧ ∀ j, j < k → s.pressed j = false := by
  have hs := (List.find?_eq_some_iff_append.mp h)
  obtain ⟨hp, as, bs, hab, hno⟩ := hs
  refine ⟨hp, fun j hj => ?_⟩
  have hpw : List.Pairwise (· < ·) allKeys := by decide
  have hj' := mem_allKeys j
  rw [hab] at hj' hpw
  rcases List.mem_append.mp hj' with h1 | h1
  · simpa using hno j h1
  · rcases List.mem_cons.mp h1 with h2 | h2
    · exact absurd (h2 ▸ hj) (by simp)
    · have := (List.pairwise_cons.mp (List.pairwise_append.mp hpw).2.1).1 j h2
      exact absurd hj (by simp only [Fin.lt_def] at this ⊢; omega)

/-! ### Sequencing -/

/-- Everything `andThen` can answer with a next state. -/
theorem andThen_next {o : Host.Outcome State Fault Refusal} {f : State → State} {t : State} (h : andThen o f = .next t) :
    ∃ u, o = .next u ∧ t = f u := by
  cases o with
  | next u => simp only [andThen] at h; injection h with h; exact ⟨u, rfl, h.symm⟩
  | fault r => cases r
  | refused r => simp [andThen] at h

end Sys2Proof.Machine
end

