-- ==== Sys2Proof/Laws/Draw.lean ====
section
/-! SUPPORT. What drawing does: one sprite row, then a run of rows, as a picture (44_display.md R118 to R120). -/

namespace Sys2Proof.Machine

/-- One set bit: the pixel flips, VF is set when it was lit, nothing else changes. -/
theorem State.flipPixel_spec (s : State) (x : Fin 64) (y : Fin 32) :
    s.flipPixel x y = { s with v := (s.flipPixel x y).v, display := (s.flipPixel x y).display } ∧
    (∀ px py, (s.flipPixel x y).pixel px py = (s.pixel px py ^^ decide (x = px ∧ y = py))) ∧
    (∀ q, (s.flipPixel x y).getV q = if s.pixel x y && vf == q then 1 else s.getV q) := by
  unfold State.flipPixel
  cases h : s.pixel x y
  · refine ⟨rfl, fun px py => ?_, fun q => by simp⟩
    by_cases hp : x = px ∧ y = py
    · obtain ⟨rfl, rfl⟩ := hp; simp [h]
    · simp [hp]
  · refine ⟨rfl, fun px py => ?_, fun q => by simp [flagByte]⟩
    by_cases hp : x = px ∧ y = py
    · obtain ⟨rfl, rfl⟩ := hp; simp [h]
    · simp [hp]

/-- Whether pixel (px, py) is under a 1 bit among the bits `bits` of row byte b drawn from column x0 of row y. -/
def rowCovers (b : Byte) (x0 : Nat) (y : Fin 32) (bits : List Nat) (px : Fin 64) (py : Fin 32) : Bool :=
  decide (py = y) && decide (x0 ≤ px.val) && decide (px.val - x0 ∈ bits) && spriteBit b (px.val - x0)

/-- Some lit pixel lies under the picture. -/
def Collides (s : State) (cov : Fin 64 → Fin 32 → Bool) : Prop := ∃ px py, cov px py = true ∧ s.pixel px py = true

/-- What drawing with a picture does: pixels under the picture flip, VF is set on a collision, nothing else changes. -/
def Draws (s t : State) (cov : Fin 64 → Fin 32 → Bool) : Prop :=
  t = { s with v := t.v, display := t.display } ∧
  (∀ px py, t.pixel px py = (s.pixel px py ^^ cov px py)) ∧
  (∀ q, q ≠ vf → t.getV q = s.getV q) ∧
  (Collides s cov → t.getV vf = 1) ∧ (¬ Collides s cov → t.getV vf = s.getV vf)

theorem Draws.refl (s : State) (cov : Fin 64 → Fin 32 → Bool) (h : ∀ px py, cov px py = false) : Draws s s cov :=
  ⟨rfl, fun px py => by simp [h], fun _ _ => rfl, fun ⟨px, py, hc, _⟩ => by simp [h] at hc, fun _ => rfl⟩

/-- Two disjoint pictures drawn one after the other are their union. -/
theorem Draws.trans {s t u : State} {c d e : Fin 64 → Fin 32 → Bool} (h1 : Draws s t c) (h2 : Draws t u d)
    (hdisj : ∀ px py, c px py = true → d px py = false) (he : ∀ px py, e px py = (c px py || d px py)) : Draws s u e := by
  obtain ⟨hs, hp, hq, hv1, hv0⟩ := h1
  obtain ⟨hs', hp', hq', hv1', hv0'⟩ := h2
  have hd : ∀ px py, d px py = true → c px py = false := fun px py h => by
    cases hc : c px py
    · rfl
    · rw [hdisj px py hc] at h; cases h
  have hcol : Collides s e ↔ Collides t d ∨ Collides s c := by
    constructor
    · rintro ⟨px, py, h, hpx⟩
      cases hc : c px py
      · rw [he, hc, Bool.false_or] at h
        exact .inl ⟨px, py, h, by rw [hp, hc, hpx]; rfl⟩
      · exact .inr ⟨px, py, hc, hpx⟩
    · rintro (⟨px, py, h, hpx⟩ | ⟨px, py, h, hpx⟩)
      · rw [hp, hd px py h, Bool.xor_false] at hpx
        exact ⟨px, py, by rw [he, h, Bool.or_true], hpx⟩
      · exact ⟨px, py, by rw [he, h, Bool.true_or], hpx⟩
  refine ⟨by rw [hs', hs], fun px py => ?_, fun q h => by rw [hq' q h, hq q h], fun h => ?_, fun h => ?_⟩
  · rw [hp', hp, he]
    cases hc : c px py
    · simp
    · simp [hdisj px py hc]
  · by_cases h2 : Collides t d
    · exact hv1' h2
    · rw [hv0' h2]
      exact hv1 ((hcol.mp h).resolve_left h2)
  · rw [hcol, not_or] at h
    rw [hv0' h.1, hv0 h.2]

/-- One sprite row: the pixels under its bits flip. -/
theorem State.drawBits_spec (b : Byte) (x0 : Nat) (y : Fin 32) : ∀ (bits : List Nat) (s : State), bits.Nodup →
    List.Pairwise (· < ·) bits → Draws s (s.drawBits b x0 y bits) (rowCovers b x0 y bits)
  | [], s, _, _ => Draws.refl s _ (by simp [rowCovers])
  | bit :: bits, s, hn, hpw => by
    rw [State.drawBits]
    rw [List.nodup_cons] at hn
    rw [List.pairwise_cons] at hpw
    by_cases h : x0 + bit < 64
    · simp only [h, dite_true]
      have ih := State.drawBits_spec b x0 y bits (if spriteBit b bit then s.flipPixel ⟨x0 + bit, h⟩ y else s) hn.2 hpw.2
      refine Draws.trans (c := fun px py => decide (px = ⟨x0 + bit, h⟩ ∧ py = y) && spriteBit b bit) ?_ ih ?_ ?_
      · cases hb : spriteBit b bit
        · exact Draws.refl s _ (by simp)
        · obtain ⟨h1, h2, h3⟩ := s.flipPixel_spec ⟨x0 + bit, h⟩ y
          have hcol : Collides s (fun px py => decide (px = ⟨x0 + bit, h⟩ ∧ py = y) && true) ↔ s.pixel ⟨x0 + bit, h⟩ y = true := by
            simp [Collides]
          rw [Draws, hcol]
          refine ⟨h1, fun px py => ?_, fun q hq => ?_, fun hp => ?_, fun hp => ?_⟩
          · simp only [if_true, h2, Bool.and_true, eq_comm]
          · simp only [if_true, h3]
            simp [Ne.symm hq]
          · simp [h3, hp]
          · simp [h3, hp]
      · intro px py hc
        simp only [Bool.and_eq_true, decide_eq_true_eq] at hc
        obtain ⟨⟨rfl, rfl⟩, _⟩ := hc
        simp [rowCovers, hn.1]
      · intro px py
        simp only [rowCovers, Fin.ext_iff]
        by_cases hy : py.val = y.val <;> by_cases hx : px.val = x0 + bit
        · have h0 : x0 ≤ px.val := by omega
          have h1 : px.val - x0 = bit := by omega
          simp [hy, hx, hn.1]
        · by_cases h0 : x0 ≤ px.val
          · have h1 : px.val - x0 ≠ bit := by omega
            simp [hy, hx, h0, h1]
          · simp [hy, hx, h0]
        · simp [hy]
        · simp [hy]
    · simp only [h, dite_false]
      refine Draws.refl s _ fun px py => ?_
      have : px.val - x0 ∉ bit :: bits ∨ ¬ x0 ≤ px.val := by
        by_cases h0 : x0 ≤ px.val
        · left
          have hlt := px.isLt
          intro hm
          rcases List.mem_cons.mp hm with h1 | h1
          · omega
          · have := hpw.1 _ h1; omega
        · right; exact h0
      rcases this with h1 | h1 <;> simp [rowCovers, h1]

theorem mem_spriteBits (k : Nat) : k ∈ spriteBits ↔ k < 8 := by
  simp only [spriteBits, List.mem_cons, List.not_mem_nil, or_false]
  omega

/-- A run of rows: succeeds exactly when every visible row can be read, and then draws the sprite's picture; otherwise it raises
MEM_RANGE at the first row that cannot be read. -/
theorem State.drawRows_spec (x0 : Nat) : ∀ (rows : Nat) (s : State) (y a : Nat),
    if visibleRows y rows = 0 ∨ a + visibleRows y rows ≤ 4096 then
      ∃ t, s.drawRows x0 y a rows = .ok t ∧ Draws s t (spriteCovers s.byteAt a x0 y rows)
    else s.drawRows x0 y a rows = .error { kind := .memRange, addr := max a 4096 }
  | 0, s, y, a => by
    simp only [visibleRows, Nat.zero_min, true_or, if_true]
    exact ⟨s, rfl, Draws.refl s _ (by simp [spriteCovers])⟩
  | rows + 1, s, y, a => by
    by_cases hy : y < 32
    · have ih := State.drawRows_spec x0 rows (s.drawBits (s.byteAt a) x0 ⟨y, hy⟩ spriteBits) (y + 1) (a + 1)
      have hd := State.drawBits_spec (s.byteAt a) x0 ⟨y, hy⟩ spriteBits s (by decide) (by decide)
      have hbyte : (s.drawBits (s.byteAt a) x0 ⟨y, hy⟩ spriteBits).byteAt = s.byteAt := by
        rw [hd.1]; rfl
      have hvis : visibleRows y (rows + 1) = visibleRows (y + 1) rows + 1 := by
        unfold visibleRows; omega
      rw [hbyte] at ih
      rw [State.drawRows, State.memRead_eq]
      by_cases ha : a < 4096
      · simp only [hy, ha, if_true, dite_true]
        by_cases hok : visibleRows (y + 1) rows = 0 ∨ a + 1 + visibleRows (y + 1) rows ≤ 4096
        · have hok' : visibleRows y (rows + 1) = 0 ∨ a + visibleRows y (rows + 1) ≤ 4096 := by omega
          rw [if_pos hok] at ih
          rw [if_pos hok']
          obtain ⟨t, ht, hdt⟩ := ih
          refine ⟨t, ht, Draws.trans hd hdt ?_ ?_⟩
          · intro px py hc
            simp only [rowCovers, Bool.and_eq_true, decide_eq_true_eq] at hc
            have : ¬ y + 1 ≤ py.val := by rw [hc.1.1.1]; simp
            simp [spriteCovers, this]
          · intro px py
            simp only [spriteCovers, rowCovers, mem_spriteBits, spriteBit]
            by_cases h1 : py = ⟨y, hy⟩
            · subst h1
              simp
            · have hne : py.val ≠ y := fun h => h1 (Fin.ext h)
              by_cases h2 : y ≤ py.val
              · have h3 : y + 1 ≤ py.val := by omega
                have h4 : a + 1 + (py.val - (y + 1)) = a + (py.val - y) := by omega
                have h5 : (py.val - (y + 1) < rows) = (py.val - y < rows + 1) := by
                  apply propext; omega
                simp [h1, h2, h3, h4, h5]
              · have h3 : ¬ y + 1 ≤ py.val := by omega
                simp [h1, h2, h3]
        · have hok' : ¬ (visibleRows y (rows + 1) = 0 ∨ a + visibleRows y (rows + 1) ≤ 4096) := by omega
          rw [if_neg hok] at ih
          rw [if_neg hok', ih, Nat.max_eq_right (by omega), Nat.max_eq_right (by omega)]
      · have hok' : ¬ (visibleRows y (rows + 1) = 0 ∨ a + visibleRows y (rows + 1) ≤ 4096) := by omega
        rw [if_neg hok']
        simp only [hy, ha, if_false, dite_true, Nat.max_eq_left (Nat.le_of_not_lt ha)]
    · have hok' : visibleRows y (rows + 1) = 0 := by unfold visibleRows; omega
      rw [if_pos (.inl hok'), State.drawRows]
      simp only [hy, dite_false]
      refine ⟨s, rfl, Draws.refl s _ fun px py => ?_⟩
      have : ¬ y ≤ py.val := by have := py.isLt; omega
      simp [spriteCovers, this]

end Sys2Proof.Machine
end

