-- ==== Sys2Proof/Laws/Frame.lean ====
section
/-! SUPPORT. What the sequencer's operations do, each said once as an equation: the emitted diagnostic, the counted call, the closed
frame, the host's turn. -/

namespace Sys2Proof.Machine

/-- A timer step in numbers. -/
theorem decToZero_toNat (b : Byte) : (decToZero b).toNat = b.toNat - 1 := by revert b; decide

theorem State.emitDiag_eq (s : State) :
    s.emitDiag = { s with events := s.call.diag.toList.map .diagnostic ++ s.events } := by
  unfold State.emitDiag
  cases s.call.diag <;> rfl

/-- A counted call: its diagnostic in the history, the batch one longer. -/
theorem State.countCall_eq (s : State) :
    s.countCall = { s with batch := s.batch + 1, events := s.call.diag.toList.map .diagnostic ++ s.events } := by
  rw [State.countCall, State.emitDiag_eq]

/-- When the batch ends, in terms of the state the call left. -/
theorem State.countCall_batchEnds (s : State) :
    s.countCall.batchEnds = (s.fault.isSome || s.call.redraw || decide (s.ipf ≤ s.batch + 1)) := by
  rw [State.countCall_eq]; rfl

/-- A closed frame: the timers ticked or not, framebuffer and tone in the history, no frame open. -/
theorem State.closeFrame_eq (s : State) :
    s.closeFrame = { s with
      dt := if s.ticks then decToZero s.dt else s.dt
      st := if s.ticks then decToZero s.st else s.st
      batch := 0
      events := .tone (decide ((if s.ticks then decToZero s.st else s.st).toNat > 0)) :: .framebuffer s.display :: s.events } := by
  unfold State.closeFrame
  cases s.ticks <;> rfl

theorem State.afterCall_eq (s : State) :
    s.afterCall = if s.fault.isSome || s.call.redraw || decide (s.ipf ≤ s.batch + 1) then s.countCall.closeFrame else s.countCall := by
  rw [State.afterCall, State.countCall_batchEnds]

/-- Inside a frame nothing precedes the call. -/
theorem State.openFrame_inside {s : State} (h : s.batch ≠ 0) : s.openFrame = s := if_neg h

/-- Between two frames with no host action listed, only the keypad is read. -/
theorem State.openFrame_idle {s : State} (h : s.batch = 0) (hi : s.inputs = []) : s.openFrame = s.readKeypad := by
  simp only [State.openFrame, State.hostTurn, h, hi, if_true]

/-- The actions of a gap, one after the other. -/
theorem State.applyActions_eq (as : List HostAction) : ∀ s : State, s.applyActions as = as.foldl State.applyAction s := by
  induction as with
  | nil => exact fun _ => rfl
  | cons a as ih => exact fun s => ih (s.applyAction a)

/-- Between two frames with host actions listed, they are applied in order and then the keypad is read. -/
theorem State.openFrame_actions {s : State} {now : List HostAction} {later : List (List HostAction)} (h : s.batch = 0)
    (hi : s.inputs = now :: later) :
    s.openFrame = (now.foldl State.applyAction { s with inputs := later }).readKeypad := by
  simp only [State.openFrame, State.hostTurn, h, hi, if_true, State.applyActions_eq]

/-- Where the host does nothing, the start of a step changes at most the key latches. -/
theorem State.openFrame_quiet {s : State} (h : s.batch ≠ 0 ∨ s.inputs = []) : ∃ k, s.openFrame = { s with keypad := k } := by
  by_cases hb : s.batch = 0
  · exact ⟨s.hostKeys, State.openFrame_idle hb (h.resolve_left (· hb))⟩
  · exact ⟨s.keypad, State.openFrame_inside hb⟩

/-- Everything one step can do: a call of the sequencer, or the end of the frame. -/
theorem step_cases {s t : State} (h : step s = .next t) :
    (s.openFrame.callDue = true ∧ ∃ u, executorCall s.openFrame = .next u ∧ t = u.afterCall) ∨
    (s.openFrame.callDue = false ∧ t = s.openFrame.closeFrame) := by
  simp only [step, State.turn] at h
  cases hc : s.openFrame.callDue
  · rw [hc] at h
    simp only [Bool.false_eq_true, if_false] at h
    injection h with h
    exact .inr ⟨rfl, h.symm⟩
  · rw [hc] at h
    simp only [if_true] at h
    exact .inl ⟨rfl, andThen_next h⟩

/-- Everything a call can do: a fetch fault, an instruction, or an unrecognized word. -/
theorem executorCall_cases {s t : State} (h : executorCall s = .next t) :
    (∃ r, s.fetch = .error r ∧ t = s.takeFault none r) ∨
    (∃ w i, s.fetch = .ok w ∧ decode w = .ok i ∧ exec i s = .next t) ∨
    (∃ w e, s.fetch = .ok w ∧ decode w = .error e ∧ t = s.enter.signal .unrecognizedOpcode s.pc w) := by
  unfold executorCall at h
  cases hf : s.fetch with
  | error r => rw [hf] at h; injection h with h; exact .inl ⟨r, rfl, h.symm⟩
  | ok w =>
    rw [hf] at h
    simp only [execWord] at h
    cases hd : decode w with
    | ok i => rw [hd] at h; exact .inr (.inl ⟨w, i, rfl, hd, h⟩)
    | error e => rw [hd] at h; injection h with h; exact .inr (.inr ⟨w, e, rfl, hd, h.symm⟩)

end Sys2Proof.Machine
end

