-- ==== Sys2Proof/Laws/PerInstr.lean ====
section
/-! SUPPORT. The per-instruction family TableRow: the word of an instruction has the fixed bits of its row of the opcode table
(30_encoding.md R69), and the row is a well-formed row of the table. -/

namespace Sys2Proof.Laws

/-- The class bits of a number. -/
theorem and_F000 (a : Nat) (h : a < 65536) : a &&& 0xF000 = a / 4096 * 4096 := by
  have key : a &&& (2 ^ 12 * 15) = 2 ^ 12 * ((a / 2 ^ 12) &&& (2 ^ 4 - 1)) := by
    apply Nat.eq_of_testBit_eq
    intro i
    rw [Nat.testBit_and, Nat.testBit_two_pow_mul, Nat.testBit_two_pow_mul, Nat.testBit_and, Nat.testBit_div_two_pow]
    by_cases hi : i ≥ 12 <;> simp [hi]
  rw [show (0xF000 : Nat) = 2 ^ 12 * 15 by rfl, key, Nat.and_two_pow_sub_one_eq_mod]
  omega

/-- The class bits and the low `k` bits of a number. -/
theorem and_F000_low (a k : Nat) (h : a < 65536) (hk : k ≤ 12) : a &&& (0xF000 ||| (2 ^ k - 1)) = a / 4096 * 4096 + a % 2 ^ k := by
  rw [Nat.and_or_distrib_left, and_F000 a h, Nat.and_two_pow_sub_one_eq_mod]
  have h2 : a % 2 ^ k < 2 ^ 12 := Nat.lt_of_lt_of_le (Nat.mod_lt _ (Nat.two_pow_pos k)) (Nat.pow_le_pow_right (by omega) hk)
  rw [show a / 4096 * 4096 = 2 ^ 12 * (a / 4096) by omega, ← Nat.two_pow_add_eq_or_of_lt h2]

theorem packA_class (c : Nat) (nnn : BitVec 12) : packA c nnn &&& 0xF000 = BitVec.ofNat 16 (c * 4096) := by
  have := nnn.isLt
  apply BitVec.eq_of_toNat_eq
  rw [BitVec.toNat_and, show (0xF000 : Word).toNat = 0xF000 by rfl, and_F000 _ (packA c nnn).isLt]
  simp only [packA, BitVec.toNat_ofNat]
  omega

theorem packXNN_class (c : Nat) (x : Reg) (nn : BitVec 8) :
    packXNN c x nn &&& 0xF000 = BitVec.ofNat 16 (c * 4096) := by
  have := nn.isLt
  have := x.isLt
  apply BitVec.eq_of_toNat_eq
  rw [BitVec.toNat_and, show (0xF000 : Word).toNat = 0xF000 by rfl, and_F000 _ (packXNN c x nn).isLt]
  simp only [packXNN, BitVec.toNat_ofNat]
  omega

theorem packXNN_function (c : Nat) (x : Reg) (nn : BitVec 8) :
    packXNN c x nn &&& 0xF0FF = BitVec.ofNat 16 (c * 4096 + nn.toNat) := by
  have := nn.isLt
  have := x.isLt
  apply BitVec.eq_of_toNat_eq
  rw [BitVec.toNat_and, show (0xF0FF : Word).toNat = 0xF000 ||| (2 ^ 8 - 1) by rfl,
    and_F000_low _ 8 (packXNN c x nn).isLt (by omega)]
  simp only [packXNN, BitVec.toNat_ofNat]
  omega

theorem packXYN_class (c : Nat) (x y : Reg) (n : BitVec 4) :
    packXYN c x y n &&& 0xF000 = BitVec.ofNat 16 (c * 4096) := by
  have := n.isLt
  have := x.isLt
  have := y.isLt
  apply BitVec.eq_of_toNat_eq
  rw [BitVec.toNat_and, show (0xF000 : Word).toNat = 0xF000 by rfl, and_F000 _ (packXYN c x y n).isLt]
  simp only [packXYN, BitVec.toNat_ofNat]
  omega

theorem packXYN_function (c : Nat) (x y : Reg) (n : BitVec 4) :
    packXYN c x y n &&& 0xF00F = BitVec.ofNat 16 (c * 4096 + n.toNat) := by
  have := n.isLt
  have := x.isLt
  have := y.isLt
  apply BitVec.eq_of_toNat_eq
  rw [BitVec.toNat_and, show (0xF00F : Word).toNat = 0xF000 ||| (2 ^ 4 - 1) by rfl,
    and_F000_low _ 4 (packXYN c x y n).isLt (by omega)]
  simp only [packXYN, BitVec.toNat_ofNat]
  omega

/-- The word of the instruction matches its row, which is well formed and in the table. -/
def TableRow.Statement (i : Instr) : Prop :=
  encode i &&& i.row.mask = i.row.pattern ∧ i.row ∈ opTable ∧ i.wellFormed = true

theorem TableRow.cls : TableRow.Statement (.cls) :=
  ⟨by decide, by decide, rfl⟩

theorem TableRow.ret : TableRow.Statement (.ret) :=
  ⟨by decide, by decide, rfl⟩

theorem TableRow.jp (nnn : BitVec 12) : TableRow.Statement (.jp nnn) :=
  ⟨packA_class 0x1 nnn, by simp [Instr.row, opTable], by simp [Instr.wellFormed, Instr.row, OpRow.wellFormed]⟩

theorem TableRow.call (nnn : BitVec 12) : TableRow.Statement (.call nnn) :=
  ⟨packA_class 0x2 nnn, by simp [Instr.row, opTable], by simp [Instr.wellFormed, Instr.row, OpRow.wellFormed]⟩

theorem TableRow.seVxNn (x : Reg) (nn : BitVec 8) : TableRow.Statement (.seVxNn x nn) :=
  ⟨packXNN_class 0x3 x nn, by simp [Instr.row, opTable], by simp [Instr.wellFormed, Instr.row, OpRow.wellFormed]⟩

theorem TableRow.sneVxNn (x : Reg) (nn : BitVec 8) : TableRow.Statement (.sneVxNn x nn) :=
  ⟨packXNN_class 0x4 x nn, by simp [Instr.row, opTable], by simp [Instr.wellFormed, Instr.row, OpRow.wellFormed]⟩

theorem TableRow.seVxVy (x : Reg) (y : Reg) : TableRow.Statement (.seVxVy x y) :=
  ⟨packXYN_function 0x5 x y 0x0, by simp [Instr.row, opTable], by simp [Instr.wellFormed, Instr.row, OpRow.wellFormed]⟩

theorem TableRow.ldVxNn (x : Reg) (nn : BitVec 8) : TableRow.Statement (.ldVxNn x nn) :=
  ⟨packXNN_class 0x6 x nn, by simp [Instr.row, opTable], by simp [Instr.wellFormed, Instr.row, OpRow.wellFormed]⟩

theorem TableRow.addVxNn (x : Reg) (nn : BitVec 8) : TableRow.Statement (.addVxNn x nn) :=
  ⟨packXNN_class 0x7 x nn, by simp [Instr.row, opTable], by simp [Instr.wellFormed, Instr.row, OpRow.wellFormed]⟩

theorem TableRow.ldVxVy (x : Reg) (y : Reg) : TableRow.Statement (.ldVxVy x y) :=
  ⟨packXYN_function 0x8 x y 0x0, by simp [Instr.row, opTable], by simp [Instr.wellFormed, Instr.row, OpRow.wellFormed]⟩

theorem TableRow.orVxVy (x : Reg) (y : Reg) : TableRow.Statement (.orVxVy x y) :=
  ⟨packXYN_function 0x8 x y 0x1, by simp [Instr.row, opTable], by simp [Instr.wellFormed, Instr.row, OpRow.wellFormed]⟩

theorem TableRow.andVxVy (x : Reg) (y : Reg) : TableRow.Statement (.andVxVy x y) :=
  ⟨packXYN_function 0x8 x y 0x2, by simp [Instr.row, opTable], by simp [Instr.wellFormed, Instr.row, OpRow.wellFormed]⟩

theorem TableRow.xorVxVy (x : Reg) (y : Reg) : TableRow.Statement (.xorVxVy x y) :=
  ⟨packXYN_function 0x8 x y 0x3, by simp [Instr.row, opTable], by simp [Instr.wellFormed, Instr.row, OpRow.wellFormed]⟩

theorem TableRow.addVxVy (x : Reg) (y : Reg) : TableRow.Statement (.addVxVy x y) :=
  ⟨packXYN_function 0x8 x y 0x4, by simp [Instr.row, opTable], by simp [Instr.wellFormed, Instr.row, OpRow.wellFormed]⟩

theorem TableRow.sub (x : Reg) (y : Reg) : TableRow.Statement (.sub x y) :=
  ⟨packXYN_function 0x8 x y 0x5, by simp [Instr.row, opTable], by simp [Instr.wellFormed, Instr.row, OpRow.wellFormed]⟩

theorem TableRow.shr (x : Reg) (y : Reg) : TableRow.Statement (.shr x y) :=
  ⟨packXYN_function 0x8 x y 0x6, by simp [Instr.row, opTable], by simp [Instr.wellFormed, Instr.row, OpRow.wellFormed]⟩

theorem TableRow.subn (x : Reg) (y : Reg) : TableRow.Statement (.subn x y) :=
  ⟨packXYN_function 0x8 x y 0x7, by simp [Instr.row, opTable], by simp [Instr.wellFormed, Instr.row, OpRow.wellFormed]⟩

theorem TableRow.shl (x : Reg) (y : Reg) : TableRow.Statement (.shl x y) :=
  ⟨packXYN_function 0x8 x y 0xE, by simp [Instr.row, opTable], by simp [Instr.wellFormed, Instr.row, OpRow.wellFormed]⟩

theorem TableRow.sneVxVy (x : Reg) (y : Reg) : TableRow.Statement (.sneVxVy x y) :=
  ⟨packXYN_function 0x9 x y 0x0, by simp [Instr.row, opTable], by simp [Instr.wellFormed, Instr.row, OpRow.wellFormed]⟩

theorem TableRow.ldINnn (nnn : BitVec 12) : TableRow.Statement (.ldINnn nnn) :=
  ⟨packA_class 0xA nnn, by simp [Instr.row, opTable], by simp [Instr.wellFormed, Instr.row, OpRow.wellFormed]⟩

theorem TableRow.jpV0 (nnn : BitVec 12) : TableRow.Statement (.jpV0 nnn) :=
  ⟨packA_class 0xB nnn, by simp [Instr.row, opTable], by simp [Instr.wellFormed, Instr.row, OpRow.wellFormed]⟩

theorem TableRow.rnd (x : Reg) (nn : BitVec 8) : TableRow.Statement (.rnd x nn) :=
  ⟨packXNN_class 0xC x nn, by simp [Instr.row, opTable], by simp [Instr.wellFormed, Instr.row, OpRow.wellFormed]⟩

theorem TableRow.drw (x : Reg) (y : Reg) (n : BitVec 4) : TableRow.Statement (.drw x y n) :=
  ⟨packXYN_class 0xD x y n, by simp [Instr.row, opTable], by simp [Instr.wellFormed, Instr.row, OpRow.wellFormed]⟩

theorem TableRow.skp (x : Reg) : TableRow.Statement (.skp x) :=
  ⟨packXNN_function 0xE x 0x9E, by simp [Instr.row, opTable], by simp [Instr.wellFormed, Instr.row, OpRow.wellFormed]⟩

theorem TableRow.sknp (x : Reg) : TableRow.Statement (.sknp x) :=
  ⟨packXNN_function 0xE x 0xA1, by simp [Instr.row, opTable], by simp [Instr.wellFormed, Instr.row, OpRow.wellFormed]⟩

theorem TableRow.ldVxDt (x : Reg) : TableRow.Statement (.ldVxDt x) :=
  ⟨packXNN_function 0xF x 0x07, by simp [Instr.row, opTable], by simp [Instr.wellFormed, Instr.row, OpRow.wellFormed]⟩

theorem TableRow.ldVxK (x : Reg) : TableRow.Statement (.ldVxK x) :=
  ⟨packXNN_function 0xF x 0x0A, by simp [Instr.row, opTable], by simp [Instr.wellFormed, Instr.row, OpRow.wellFormed]⟩

theorem TableRow.ldDtVx (x : Reg) : TableRow.Statement (.ldDtVx x) :=
  ⟨packXNN_function 0xF x 0x15, by simp [Instr.row, opTable], by simp [Instr.wellFormed, Instr.row, OpRow.wellFormed]⟩

theorem TableRow.ldStVx (x : Reg) : TableRow.Statement (.ldStVx x) :=
  ⟨packXNN_function 0xF x 0x18, by simp [Instr.row, opTable], by simp [Instr.wellFormed, Instr.row, OpRow.wellFormed]⟩

theorem TableRow.addIVx (x : Reg) : TableRow.Statement (.addIVx x) :=
  ⟨packXNN_function 0xF x 0x1E, by simp [Instr.row, opTable], by simp [Instr.wellFormed, Instr.row, OpRow.wellFormed]⟩

theorem TableRow.ldFVx (x : Reg) : TableRow.Statement (.ldFVx x) :=
  ⟨packXNN_function 0xF x 0x29, by simp [Instr.row, opTable], by simp [Instr.wellFormed, Instr.row, OpRow.wellFormed]⟩

theorem TableRow.ldBVx (x : Reg) : TableRow.Statement (.ldBVx x) :=
  ⟨packXNN_function 0xF x 0x33, by simp [Instr.row, opTable], by simp [Instr.wellFormed, Instr.row, OpRow.wellFormed]⟩

theorem TableRow.ldMemVx (x : Reg) : TableRow.Statement (.ldMemVx x) :=
  ⟨packXNN_function 0xF x 0x55, by simp [Instr.row, opTable], by simp [Instr.wellFormed, Instr.row, OpRow.wellFormed]⟩

theorem TableRow.ldVxMem (x : Reg) : TableRow.Statement (.ldVxMem x) :=
  ⟨packXNN_function 0xF x 0x65, by simp [Instr.row, opTable], by simp [Instr.wellFormed, Instr.row, OpRow.wellFormed]⟩

end Sys2Proof.Laws
end

