-- ==== Sys2Proof/Tests/Slice0.lean ====
section
/-! SUPPORT. The model's own tests, each on one call or one step. Expected results come from spec/95_test_vectors.md (the vector is
named: A, C, M, G, K, E, S), from the opcode map of 30_encoding.md R63, or from the rule named. The last part gives, for every
obligation with hypotheses, states and operands that meet them, one for each clause at the edge of its range. -/

namespace Sys2Proof.Tests

open Sys2Proof Sys2Proof.Machine

/-- The outcome is a next state with the property. -/
def holds (o : Host.Outcome State Fault Refusal) (p : State → Bool) : Bool :=
  match o with
  | .next t => p t
  | .fault _ => false
  | .refused _ => false

/-- The reset state with some registers set. -/
def regs (l : List (Reg × Byte)) : State := l.foldl (fun s p => s.setV p.1 p.2) State.reset

/-- The state with some bytes of memory set. -/
def bytes (s : State) (l : List (Nat × Byte)) : State := l.foldl (fun t p => t.setByte p.1 p.2) s

/-- A full stack, every entry the given word. -/
def fullStack (w : Word) : State := { State.reset with sp := 16, stack := Vector.replicate 16 w }

/-- The reset state with the listed keys pressed. -/
def keys (ks : List Key) : State := { State.reset with keypad := Vector.ofFn fun k => ks.contains k }

/-- The lit columns of a row. -/
def litIn (s : State) (y : Fin 32) : List Nat := ((List.finRange 64).filter fun x => s.pixel x y).map fun x => x.val

/-! ### Well-formedness -/

/-- A row that fixes a bit outside its mask is refused (R69). -/
theorem test_ill_formed_row_refused : OpRow.wellFormed ⟨0x5001, 0xF000⟩ = false := by decide

/-- A row of the table is accepted. -/
theorem test_well_formed_row : (Instr.seVxVy 1 2).wellFormed = true := by decide

/-- 3585 bytes do not fit (S12). -/
theorem test_image_too_large_refused : imageFits (List.replicate 3585 0) = false :=
  decide_eq_false (by rw [List.length_replicate]; omega)

/-- 3584 bytes fit (S12). -/
theorem test_image_of_limit_fits : imageFits (List.replicate 3584 0) = true :=
  decide_eq_true (by rw [List.length_replicate])

/-- Every row of the opcode table is well formed, and there are 34 (R69). -/
theorem test_table_well_formed : opTable.length = 34 ∧ opTable.all OpRow.wellFormed = true := by decide

/-- No two rows of the opcode table match one word (R69). -/
theorem test_table_rows_disjoint : opTable.Pairwise (fun r q => r.overlaps q = false) := by decide

/-! ### Decoding: one word of every row, its hex digits written from the layout column of R63 -/

theorem test_decode_display : decode 0x00E0 = .ok .cls ∧ decode 0xD125 = .ok (.drw 1 2 5) := by decide

theorem test_decode_control :
    decode 0x00EE = .ok .ret ∧ decode 0x1234 = .ok (.jp 0x234) ∧ decode 0x2210 = .ok (.call 0x210) ∧
    decode 0x3A42 = .ok (.seVxNn 0xA 0x42) ∧ decode 0x4A42 = .ok (.sneVxNn 0xA 0x42) ∧
    decode 0x5AB0 = .ok (.seVxVy 0xA 0xB) ∧ decode 0x9AB0 = .ok (.sneVxVy 0xA 0xB) ∧ decode 0xBFFF = .ok (.jpV0 0xFFF) := by
  decide

theorem test_decode_alu :
    decode 0x6A42 = .ok (.ldVxNn 0xA 0x42) ∧ decode 0x7AFF = .ok (.addVxNn 0xA 0xFF) ∧ decode 0x8120 = .ok (.ldVxVy 1 2) ∧
    decode 0x8121 = .ok (.orVxVy 1 2) ∧ decode 0x8122 = .ok (.andVxVy 1 2) ∧ decode 0x8123 = .ok (.xorVxVy 1 2) ∧
    decode 0x8124 = .ok (.addVxVy 1 2) ∧ decode 0x8F25 = .ok (.sub 0xF 2) ∧ decode 0x81F6 = .ok (.shr 1 0xF) ∧
    decode 0x8127 = .ok (.subn 1 2) ∧ decode 0x812E = .ok (.shl 1 2) ∧ decode 0xC10F = .ok (.rnd 1 0x0F) := by
  decide

theorem test_decode_index :
    decode 0xA123 = .ok (.ldINnn 0x123) ∧ decode 0xF21E = .ok (.addIVx 2) ∧ decode 0xF529 = .ok (.ldFVx 5) ∧
    decode 0xF433 = .ok (.ldBVx 4) ∧ decode 0xF255 = .ok (.ldMemVx 2) ∧ decode 0xFF65 = .ok (.ldVxMem 0xF) := by
  decide

theorem test_decode_keypad :
    decode 0xE19E = .ok (.skp 1) ∧ decode 0xE1A1 = .ok (.sknp 1) ∧ decode 0xF307 = .ok (.ldVxDt 3) ∧
    decode 0xF30A = .ok (.ldVxK 3) ∧ decode 0xF015 = .ok (.ldDtVx 0) ∧ decode 0xF218 = .ok (.ldStVx 2) := by
  decide

/-- The words E2 calls unrecognized, with A40 and C13. -/
theorem test_decode_unrecognized :
    [0x0123, 0x800F, 0xE0FF, 0xF0FF, 0x5121, 0x912F, 0x00E1, 0x8128, 0x5AB1].all
      (fun w : Word => decide (decode w = .error (.unrecognized w))) = true := by decide

/-- The byte at the lower address is the high byte (R48), and one byte is no instruction. -/
theorem test_decode_bytes :
    decodeBytes [0x60, 0x05, 0x61] = .ok (.ldVxNn 0 5, [0x61]) ∧ decodeBytes [0x60] = .error .truncated := by decide

/-- The numbering of the host's word. -/
theorem test_decode_table_word : decodeTableWord 16 0xD125 = some (.drw 1 2 5) ∧ decodeTableWord 16 0x8128 = none := by decide

/-! ### Registers, arithmetic and flags -/

theorem test_A1_ld_nn : holds (execWord 0x6A42 State.reset) (fun t => t.getV 0xA == 0x42 && t.pc == 0x202) = true := by decide

theorem test_A2_add_nn_wraps :
    holds (execWord 0x7AFF (regs [(0xA, 0x02), (0xF, 0x07)])) (fun t => t.getV 0xA == 0x01 && t.getV 0xF == 0x07) = true := by
  decide

theorem test_A3_add_nn_into_vf : holds (execWord 0x7F01 (regs [(0xF, 0xFF)])) (fun t => t.getV 0xF == 0x00) = true := by decide

theorem test_A4_ld_vy :
    holds (execWord 0x8120 (regs [(2, 0x33), (0xF, 0x05)])) (fun t => t.getV 1 == 0x33 && t.getV 0xF == 0x05) = true := by decide

theorem test_A5_or :
    holds (execWord 0x8121 (regs [(1, 0xF0), (2, 0x0F), (0xF, 0x01)])) (fun t => t.getV 1 == 0xFF && t.getV 0xF == 0) = true := by
  decide

theorem test_A6_and :
    holds (execWord 0x8122 (regs [(1, 0xF0), (2, 0x3C), (0xF, 9)])) (fun t => t.getV 1 == 0x30 && t.getV 0xF == 0) = true := by
  decide

theorem test_A7_xor :
    holds (execWord 0x8123 (regs [(1, 0xFF), (2, 0x0F), (0xF, 9)])) (fun t => t.getV 1 == 0xF0 && t.getV 0xF == 0) = true := by
  decide

theorem test_A8_or_into_vf : holds (execWord 0x8F21 (regs [(0xF, 0x01), (2, 0x80)])) (fun t => t.getV 0xF == 0) = true := by decide

theorem test_A10_add_carry :
    holds (execWord 0x8124 (regs [(1, 0xFF), (2, 0x01)])) (fun t => t.getV 1 == 0 && t.getV 0xF == 1) = true := by decide

theorem test_A14_add_of_vf :
    holds (execWord 0x81F4 (regs [(1, 0x10), (0xF, 0xF5)])) (fun t => t.getV 1 == 0x05 && t.getV 0xF == 1) = true := by decide

theorem test_A17_sub_borrow :
    holds (execWord 0x8125 (regs [(1, 0x03), (2, 0x05)])) (fun t => t.getV 1 == 0xFE && t.getV 0xF == 0) = true := by decide

theorem test_A18_sub_equal :
    holds (execWord 0x8125 (regs [(1, 0x07), (2, 0x07)])) (fun t => t.getV 1 == 0 && t.getV 0xF == 1) = true := by decide

theorem test_A23_subn :
    holds (execWord 0x8127 (regs [(1, 0x03), (2, 0x05)])) (fun t => t.getV 1 == 0x02 && t.getV 0xF == 1) = true := by decide

theorem test_A26_subn_into_vf : holds (execWord 0x8F27 (regs [(0xF, 2), (2, 1)])) (fun t => t.getV 0xF == 0) = true := by decide

theorem test_A30_shr_into_vf : holds (execWord 0x8F26 (regs [(2, 0x05)])) (fun t => t.getV 0xF == 0x02) = true := by decide

theorem test_A31_shr_of_vf :
    holds (execWord 0x81F6 (regs [(1, 0x99), (0xF, 0x03)])) (fun t => t.getV 1 == 0 && t.getV 0xF == 1) = true := by decide

theorem test_A32_shl : holds (execWord 0x812E (regs [(2, 0x81)])) (fun t => t.getV 1 == 0x02 && t.getV 0xF == 1) = true := by decide

theorem test_A36_shl_vf_by_vf : holds (execWord 0x8FFE (regs [(0xF, 0x80)])) (fun t => t.getV 0xF == 0x02) = true := by decide

/-- A38: whatever byte is drawn, NN = 0 gives 0; the next draw is another one. -/
theorem test_A38_rnd_masked_by_zero :
    (match execWord 0xC100 State.reset with
     | .next t => t.getV 1 = 0 ∧ t.draws = 1
     | _ => False) := by
  simp only [execWord, show decode 0xC100 = .ok (.rnd 1 0) by decide, exec, execRnd]
  refine ⟨?_, rfl⟩
  rw [State.getV_setV]
  simp

/-! ### Control flow -/

theorem test_C1_jp : holds (execWord 0x1234 State.reset) (fun t => t.pc == 0x234) = true := by decide

theorem test_C3_call :
    holds (execWord 0x2210 { State.reset with pc := 0x204 }) (fun t => t.stack[0] == 0x206 && t.sp == 1 && t.pc == 0x210) = true := by
  decide

theorem test_C6_call_on_full_stack :
    holds (execWord 0x2400 { fullStack 0x202 with pc := 0x300 })
      (fun t => t.pc == 0x302 && t.sp == 16 && t.call.diag == some ⟨.stackOverflow, 0x300, 0x2400⟩) = true := by decide

theorem test_C4_ret :
    holds (execWord 0x00EE { State.reset with pc := 0x210, sp := 1, stack := State.reset.stack.set 0 0x206 })
      (fun t => t.pc == 0x206 && t.sp == 0 && t.stack[0] == 0x206) = true := by decide

theorem test_C5_ret_on_empty_stack :
    holds (execWord 0x00EE State.reset)
      (fun t => t.pc == 0x202 && t.sp == 0 && t.call.diag == some ⟨.stackUnderflow, 0x200, 0x00EE⟩) = true := by decide

theorem test_C7_se_taken : holds (execWord 0x3A42 (regs [(0xA, 0x42)])) (fun t => t.pc == 0x204) = true := by decide

theorem test_C8_se_not_taken : holds (execWord 0x3A42 (regs [(0xA, 0x43)])) (fun t => t.pc == 0x202) = true := by decide

theorem test_C9_sne_taken : holds (execWord 0x4A42 (regs [(0xA, 0x43)])) (fun t => t.pc == 0x204) = true := by decide

theorem test_C10_sne_not_taken : holds (execWord 0x4A42 (regs [(0xA, 0x42)])) (fun t => t.pc == 0x202) = true := by decide

theorem test_C11_se_registers : holds (execWord 0x5AB0 (regs [(0xA, 0x10), (0xB, 0x10)])) (fun t => t.pc == 0x204) = true := by
  decide

theorem test_C14_sne_registers : holds (execWord 0x9AB0 (regs [(0xA, 0x01), (0xB, 0x02)])) (fun t => t.pc == 0x204) = true := by
  decide

theorem test_C17_jp_v0 : holds (execWord 0xBFFF (regs [(0, 0xFF)])) (fun t => t.pc == 0x10FE) = true := by decide

/-! ### Index and memory -/

theorem test_M1_ld_i : holds (execWord 0xA123 State.reset) (fun t => t.i == 0x123) = true := by decide

theorem test_M3_add_i_no_flag :
    holds (execWord 0xF21E { regs [(2, 1)] with i := 0xFFF }) (fun t => t.i == 0x1000 && t.getV 0xF == 0 && t.fault == none) = true := by
  decide

theorem test_M4_add_i_wraps : holds (execWord 0xF21E { regs [(2, 1)] with i := 0xFFFF }) (fun t => t.i == 0) = true := by decide

theorem test_M7_ld_f_no_mask : holds (execWord 0xF529 (regs [(5, 0xFF)])) (fun t => t.i == 0x4FB) = true := by decide

theorem test_M8_ld_b :
    holds (execWord 0xF433 { regs [(4, 0x9C)] with i := 0x300 })
      (fun t => t.byteAt 0x300 == 1 && t.byteAt 0x301 == 5 && t.byteAt 0x302 == 6 && t.i == 0x300) = true := by decide

theorem test_M11_ld_b_faults :
    holds (execWord 0xF433 { regs [(4, 0x01)] with i := 0xFFE })
      (fun t => t.fault == some ⟨.memRange, 0x200, some 0xF433, 0x1000⟩ && t.memory == [] && t.pc == 0x200 &&
        t.runState == .halted) = true := by decide

theorem test_M12_ld_mem :
    holds (execWord 0xF255 { regs [(0, 0x11), (1, 0x22), (2, 0x33)] with i := 0x400 })
      (fun t => t.memory == [(0x400, 0x11), (0x401, 0x22), (0x402, 0x33)] && t.i == 0x403) = true := by decide

theorem test_S11_font_is_writable :
    holds (execWord 0xF055 (regs [(0, 0xAA)])) (fun t => t.byteAt 0 == 0xAA && t.byteAt 1 == 0x90 && t.i == 1) = true := by decide

theorem test_M14_ld_from_mem :
    holds (execWord 0xF265 { bytes State.reset [(0x401, 0x01), (0x402, 0x02)] with i := 0x400 })
      (fun t => t.getV 0 == 0 && t.getV 1 == 1 && t.getV 2 == 2 && t.getV 3 == 0 && t.i == 0x403) = true := by decide

theorem test_M16_ld_from_mem_faults :
    holds (execWord 0xF065 { regs [(0, 7)] with i := 0xFFFF })
      (fun t => t.fault == some ⟨.memRange, 0x200, some 0xF065, 0xFFFF⟩ && t.getV 0 == 7 && t.i == 0xFFFF) = true := by decide

/-! ### Display -/

theorem test_G1_cls :
    holds (execWord 0x00E0 (State.reset.setPixel 3 0 true)) (fun t => !t.pixel 3 0 && t.call.redraw && t.getV 0xF == 0) = true := by
  decide

theorem test_G2_drw_glyph :
    holds (execWord 0xD125 (regs [(1, 5), (2, 2)]))
      (fun t => litIn t 2 == [5, 6, 7, 8] && litIn t 3 == [5, 8] && litIn t 6 == [5, 6, 7, 8] && litIn t 7 == []
        && t.getV 0xF == 0 && t.call.redraw) = true := by decide

theorem test_G11_drw_clips_and_collides :
    holds (execWord 0xD121 { bytes (regs [(1, 63)]) [(0x300, 0xFF)] with i := 0x300, display := Display.clear.put 63 0 true })
      (fun t => litIn t 0 == [] && t.getV 0xF == 1) = true := by decide

/-! ### Keypad and timers -/

theorem test_K1_skp : holds (execWord 0xE19E ((keys [5]).setV 1 5)) (fun t => t.pc == 0x204) = true := by decide

theorem test_K5_skp_faults :
    holds (execWord 0xE19E (regs [(1, 0x10)]))
      (fun t => t.fault == some ⟨.keyRange, 0x200, some 0xE19E, 0x10⟩ && t.pc == 0x200 && t.runState == .halted) = true := by decide

theorem test_K3_sknp : holds (execWord 0xE1A1 (regs [(1, 5)])) (fun t => t.pc == 0x204) = true := by decide

theorem test_K4_sknp_pressed : holds (execWord 0xE1A1 ((keys [5]).setV 1 5)) (fun t => t.pc == 0x202) = true := by decide

theorem test_K6_ld_dt : holds (execWord 0xF307 { State.reset with dt := 0x3C }) (fun t => t.getV 3 == 0x3C) = true := by decide

theorem test_K7_set_dt : holds (execWord 0xF015 (regs [(0, 3)])) (fun t => t.dt == 3 && t.tick.dt == 2) = true := by decide

theorem test_K8_set_st : holds (execWord 0xF218 (regs [(2, 1)])) (fun t => t.st == 1 && !t.tick.tone) = true := by decide

theorem test_K10_key_captured :
    holds (execWord 0xF30A { keys [3, 7] with pc := 0x300 }) (fun t => t.keyWait == .keyCaptured 3 && t.pc == 0x300) = true := by decide

theorem test_K12_key_committed :
    holds (execWord 0xF30A { keys [7] with pc := 0x300, keyWait := .keyCaptured 3 })
      (fun t => t.keyWait == .idle && t.getV 3 == 3 && t.pc == 0x302) = true := by decide

/-! ### The sequencer and the host -/

/-- E1: the empty machine's first call is on the unrecognized word 0000. -/
theorem test_E1_unrecognized :
    holds (executorCall State.reset) (fun t => t.pc == 0x202 && t.call.diag == some ⟨.unrecognizedOpcode, 0x200, 0x0000⟩) = true := by
  decide

theorem test_E3_fetch_fault :
    holds (executorCall { State.reset with pc := 0xFFF })
      (fun t => t.fault == some ⟨.memRange, 0xFFF, none, 0x1000⟩ && t.pc == 0xFFF && t.runState == .halted) = true := by decide

theorem test_E5_odd_pc :
    holds (executorCall { bytes State.reset [(0x201, 0x6A), (0x202, 0x07)] with pc := 0x201 })
      (fun t => t.getV 0xA == 7 && t.pc == 0x203) = true := by decide

/-- E7: with debug on, one step is a whole frame with one call and one tick. -/
theorem test_E7_debug_frame :
    holds (step { State.reset with debugEnabled := true, dt := 5 }) (fun t => t.batch == 0 && t.dt == 4 && t.pc == 0x202) = true := by
  decide

/-- E8: a Paused frame makes no call and no tick, and emits. -/
theorem test_E8_paused_frame :
    holds (step { State.reset with runState := .paused, dt := 5 })
      (fun t => t.dt == 5 && t.pc == 0x200 && t.events == [.tone false, .framebuffer Display.clear]) = true := by decide

/-- E10: a fault at the 10th call ends the batch without a tick. -/
theorem test_E10_fault_ends_frame :
    holds (step { State.reset with batch := 9, dt := 5, pc := 0x1000 })
      (fun t => t.batch == 0 && t.dt == 5 && t.runState == .halted) = true := by decide

/-- E11 and E12: a pause toggle leaves a Halted core Halted, a reset starts it again. -/
theorem test_E12_reset_clears_fault :
    (({ State.reset with runState := .halted, fault := some ⟨.keyRange, 0x300, none, 16⟩, pc := 0x300 } : State).applyActions
      [.pauseToggle, .resetMachine]) = State.reset := by decide

/-- 70 R156: a load puts the image at 0x200 and starts there. -/
theorem test_load_then_step :
    holds (step { State.reset with inputs := [[.load [0x6A, 0x42]]] })
      (fun t => t.getV 0xA == 0x42 && t.pc == 0x202 && t.batch == 1 && t.image == [0x6A, 0x42]) = true := by decide

/-- R158: a key the host still holds is pressed again in the frame that starts after a reset. -/
theorem test_held_key_survives_reset :
    holds (step { State.reset with
        hostKeys := (keys [5]).keypad, keypad := (keys [5]).keypad, pc := 0x300, inputs := [[.resetMachine]] })
      (fun t => t.pressed 5 && !t.pressed 4 && t.pc == 0x202) = true := by decide

/-- R147: a keypad action counts from the frame it precedes, and stays. -/
theorem test_keypad_action_then_frame :
    holds (step { State.reset with inputs := [[.keypad (keys [7]).keypad, .resetMachine]] })
      (fun t => t.pressed 7 && t.hostKeys == t.keypad && t.inputs == []) = true := by decide

/-- S9: a timer counts down to 0 and stays there. -/
theorem test_S9_timer_decay : [3, 2, 1, 0].map decToZero = [2, 1, 0, 0] := by decide

/-- The host's word is what the next step runs. -/
theorem test_with_fetch_word : holds (step (State.reset.withFetchWord 16 0x6A42)) (fun t => t.getV 0xA == 0x42) = true := by decide

/-! ### Witnesses: states and operands that meet the hypotheses of each obligation -/

/-- A sprite setting: VX, VY and I as given, one byte of sprite data 0xFF at 0x300. -/
def sprite (vx vy : Byte) (i : Word) : State := { bytes (regs [(1, vx), (2, vy)]) [(0x300, 0xFF)] with i := i }

/-- The machine on a jump to its own address. -/
def parkedAt200 : State := bytes State.reset [(0x200, 0x12), (0x201, 0x00)]

theorem witness_O1 : (Instr.drw 0xF 0xF 0xF).wellFormed = true := by decide

theorem witness_O2 : decode 0x812E = .ok (.shl 1 2) := by decide

/-- O3: a word that decodes, a row it matches, and a word that matches no row. -/
theorem witness_O3 :
    decode 0x00E0 = .ok .cls ∧ (OpRow.matches ⟨0x00E0, 0xFFFF⟩ 0x00E0 = true ∧ ⟨0x00E0, 0xFFFF⟩ ∈ opTable) ∧
    (∀ r ∈ opTable, r.matches 0x00E1 = false) := by decide

/-- O6: a call is due between frames, with the last two bytes of memory the instruction; a state inside a frame; one between frames
with no inputs and a key held. -/
theorem witness_O6 :
    (let s : State := { bytes State.reset [(0xFFE, 0x6A), (0xFFF, 0x42)] with pc := 0xFFE }
     s.openFrame.callDue = true ∧ s.openFrame.pc.toNat + 1 < 4096 ∧
      decode (wordOfBytes (s.openFrame.byteAt s.openFrame.pc.toNat) (s.openFrame.byteAt (s.openFrame.pc.toNat + 1))) =
        .ok (.ldVxNn 0xA 0x42)) ∧
    ({ State.reset with batch := 1, inputs := [[.quit]] } : State).batch ≠ 0 ∧
    (let s : State := { State.reset with hostKeys := (keys [5]).keypad }
     s.batch = 0 ∧ s.inputs = [] ∧ s.hostKeys ≠ s.keypad) := by decide

/-- O7: an unrecognized word fetched, with a call left after this one, the last but one of a frame. -/
theorem witness_O7 :
    ∃ s : State, s.fetch = .ok 0x00E1 ∧ (∀ r ∈ opTable, r.matches 0x00E1 = false) ∧ s.fault = none ∧ s.batch = 598 ∧
      s.batch + 1 < s.ipf :=
  ⟨{ bytes State.reset [(0x201, 0xE1)] with batch := 598 }, by decide⟩

theorem witness_O8_last_address : 4096 ≤ ({ State.reset with pc := 0xFFF } : State).pc.toNat + 1 := by decide

theorem witness_O8_first_outside : 4096 ≤ ({ State.reset with pc := 0x1000 } : State).pc.toNat + 1 := by decide

/-- O9: a call that draws and one that does not. -/
theorem witness_O9 :
    (∃ s t : State, s.fetch = .ok 0x00E0 ∧ executorCall s = .next t ∧ s.runState = .running ∧ t.runState = .running) ∧
    (∃ s t : State, s.fetch = .ok 0x0000 ∧ executorCall s = .next t ∧ s.runState = .running ∧ t.runState = .running) :=
  ⟨⟨bytes State.reset [(0x201, 0xE0)], _, by decide, rfl, by decide, by decide⟩,
   ⟨State.reset, _, by decide, rfl, by decide, by decide⟩⟩

/-- O10: a call with each diagnostic and one with none. -/
theorem witness_O10 :
    (∃ s t : State, s.fetch = .ok 0x00EE ∧ executorCall s = .next t ∧ s.sp.val = 0) ∧
    (∃ s t : State, s.fetch = .ok 0x2200 ∧ executorCall s = .next t ∧ s.sp.val = 16) ∧
    (∃ s t : State, s.fetch = .ok 0x0000 ∧ executorCall s = .next t) ∧
    (∃ s t : State, s.fetch = .ok 0x00E0 ∧ executorCall s = .next t) :=
  ⟨⟨bytes State.reset [(0x201, 0xEE)], _, by decide, rfl, by decide⟩,
   ⟨bytes (fullStack 0x202) [(0x200, 0x22)], _, by decide, rfl, by decide⟩,
   ⟨State.reset, _, by decide, rfl⟩, ⟨bytes State.reset [(0x201, 0xE0)], _, by decide, rfl⟩⟩

theorem witness_O12_one_entry_left : ({ State.reset with sp := 15 } : State).sp.val < 16 := by decide

theorem witness_O12_full : (fullStack 0x202).sp.val = 16 := by decide

theorem witness_O13_full : (fullStack 0x202).sp.val ≠ 0 ∧ ({ State.reset with sp := 1 } : State).sp.val ≠ 0 := by decide

theorem witness_O13_empty : State.reset.sp.val = 0 := by decide

theorem witness_O14 : ({ State.reset with sp := 15 } : State).sp.val < 16 := by decide

/-- O27: the last I with three bytes in range. -/
theorem witness_O27 :
    ({ State.reset with i := 0xFFD } : State).i.toNat + 2 < 4096 ∧
    Memory.wf ({ State.reset with i := 0xFFD } : State).config.font ({ State.reset with i := 0xFFD } : State).memory = true := by decide

/-- O28, O29: the last I for all sixteen registers and for one. -/
theorem witness_O28 :
    (∃ s : State, s.i.toNat + (0xF : Reg).val < 4096 ∧ s.i = 0xFF0 ∧ Memory.wf s.config.font s.memory = true) ∧
    (∃ s : State, s.i.toNat + (0 : Reg).val < 4096 ∧ s.i = 0xFFF ∧ Memory.wf s.config.font s.memory = true) :=
  ⟨⟨{ State.reset with i := 0xFF0 }, by decide⟩, ⟨{ State.reset with i := 0xFFF }, by decide⟩⟩

theorem witness_O29 :
    (∃ s : State, s.i.toNat + (0xF : Reg).val < 4096 ∧ s.i = 0xFF0) ∧
    (∃ s : State, s.i.toNat + (0 : Reg).val < 4096 ∧ s.i = 0xFFF) :=
  ⟨⟨{ State.reset with i := 0xFF0 }, by decide⟩, ⟨{ State.reset with i := 0xFFF }, by decide⟩⟩

/-- O30: the first I at which each transfer faults, and an I outside memory. -/
theorem witness_O30 :
    4096 ≤ ({ State.reset with i := 0xFFE } : State).i.toNat + 2 ∧
    4096 ≤ ({ State.reset with i := 0xFF1 } : State).i.toNat + (0xF : Reg).val ∧
    4096 ≤ ({ State.reset with i := 0x1000 } : State).i.toNat + (0 : Reg).val := by decide

theorem witness_O31 :
    ∃ s t u : State, s.i.toNat + (1 : Reg).val < 4096 ∧ Memory.wf s.config.font s.memory = true ∧
      exec (.ldMemVx 1) s = .next t ∧ u.memory = t.memory ∧ u.config = s.config ∧ u.i = s.i ∧ u.getV 0 ≠ s.getV 0 :=
  ⟨{ regs [(0, 0x11), (1, 0x22)] with i := 0x400 }, _,
   { State.reset with i := 0x400, memory := [(0x400, 0x11), (0x401, 0x22)] }, by decide, by decide, rfl, by decide⟩

/-- O32: FX55 over the whole next word, FX33 over its second byte only, and the last word of memory. -/
theorem witness_O32 :
    (∃ s : State, Memory.wf s.config.font s.memory = true ∧ (s.pc + 2).toNat + 1 < 4096 ∧ s.i = s.pc + 2 ∧
      s.i.toNat + (1 : Reg).val < 4096) ∧
    (∃ s : State, Memory.wf s.config.font s.memory = true ∧ (s.pc + 2).toNat + 1 = 4095 ∧ s.i.toNat = 4093 ∧ s.i.toNat + 2 < 4096) :=
  ⟨⟨{ State.reset with i := 0x202 }, by decide⟩, ⟨{ State.reset with pc := 0xFFC, i := 0xFFD }, by decide⟩⟩

/-- O32, worked by hand: FX33 of 0x9C from PC + 3 on leaves 00 01 as the next word, and FX55 of V0 = 12 from there 00 12. -/
theorem test_store_over_second_byte :
    holds (execWord 0xF433 { regs [(4, 0x9C)] with i := 0x203 }) (fun t => t.byteAt 0x202 == 0 && t.byteAt 0x203 == 1) = true ∧
    holds (execWord 0xF055 { regs [(0, 0x12)] with i := 0x203 }) (fun t => t.byteAt 0x202 == 0 && t.byteAt 0x203 == 0x12) = true := by
  decide

/-- O34, the range: no row shown; rows that end with memory; a sprite that the bottom edge cuts to what memory holds (G6). -/
theorem witness_O34_range :
    (sprite 0 0 0x300).rowsShown 2 0 = 0 ∧
    (sprite 0 0 0xFF1).i.toNat + (sprite 0 0 0xFF1).rowsShown 2 0xF = 4096 ∧
    (sprite 0 30 0xFFE).i.toNat + (sprite 0 30 0xFFE).rowsShown 2 5 = 4096 := by decide

/-- O34, the flag: a lit pixel under the sprite, and none. -/
theorem witness_O34_flag :
    (∃ s : State, ∃ px py, s.picture 1 2 1 px py = true ∧ s.pixel px py = true) ∧
    (∃ s : State, (∃ px py, s.picture 1 2 1 px py = true) ∧ ∀ px py, s.picture 1 2 1 px py = true → s.pixel px py = false) :=
  ⟨⟨(sprite 63 0 0x300).setPixel 63 0 true, 63, 0, by decide, by decide⟩,
   ⟨sprite 63 0 0x300, ⟨63, 0, by decide⟩, fun px py _ => Display.get_clear px py⟩⟩

theorem witness_O35 :
    (0 < (sprite 0 0 0xFFE).rowsShown 2 3 ∧ 4096 < (sprite 0 0 0xFFE).i.toNat + (sprite 0 0 0xFFE).rowsShown 2 3) ∧
    (0 < (sprite 0 31 0x1000).rowsShown 2 1 ∧ 4096 < (sprite 0 31 0x1000).i.toNat + (sprite 0 31 0x1000).rowsShown 2 1) := by decide

/-- O36, onto a clear screen. -/
theorem witness_O36_clear :
    ∃ t : State, (1 : Reg) ≠ vf ∧ (2 : Reg) ≠ vf ∧ (sprite 63 0 0x300).i.toNat + (sprite 63 0 0x300).rowsShown 2 1 ≤ 4096 ∧
      exec (.drw 1 2 1) (sprite 63 0 0x300) = .next t ∧ (∀ px py, (sprite 63 0 0x300).pixel px py = false) ∧
      (∃ px py, (sprite 63 0 0x300).picture 1 2 1 px py = true) ∧
      (∃ px py, (sprite 63 0 0x300).picture 1 2 1 px py = true ∧ t.pixel px py = true) :=
  ⟨_, by decide, by decide, by decide, rfl, fun px py => Display.get_clear px py, ⟨63, 0, by decide⟩, ⟨63, 0, by decide, by decide⟩⟩

/-- O36, no row shown; nothing is covered. -/
theorem witness_O36_no_row :
    ∃ t : State, (sprite 0 0 0x300).rowsShown 2 0 = 0 ∧ exec (.drw 1 2 0) (sprite 0 0 0x300) = .next t ∧
      ∀ px py, (sprite 0 0 0x300).picture 1 2 0 px py = true → t.pixel px py = false :=
  ⟨_, by decide, rfl, fun px py h => by simp [State.picture, spriteCovers] at h⟩

theorem witness_O37 : ((regs [(1, 0xF)]).getV 1).toNat = (0xF : Key).val ∧ ((regs [(1, 0)]).getV 1).toNat = (0 : Key).val := by decide

theorem witness_O38 : 16 ≤ ((regs [(1, 0x10)]).getV 1).toNat := by decide

/-- O40, each clause. -/
theorem witness_O40 :
    (State.reset.keyWait = .idle ∧ ∀ j, State.reset.pressed j = false) ∧
    ((keys [3, 7]).keyWait = .idle ∧ (keys [3, 7]).pressed 3 = true ∧ ∀ j, j < 3 → (keys [3, 7]).pressed j = false) ∧
    (∃ s : State, s.keyWait = .keyCaptured 0xF ∧ s.pressed 0xF = true) ∧
    (∃ s : State, s.keyWait = .keyCaptured 0 ∧ s.pressed 0 = false) :=
  ⟨by decide, by decide, ⟨{ keys [0xF] with keyWait := .keyCaptured 0xF }, by decide⟩,
   ⟨{ keys [7] with keyWait := .keyCaptured 0 }, by decide⟩⟩

/-- O41: VF under an instruction that does not write it, a register above the block of FX65. -/
theorem witness_O41 :
    (∃ t : State, exec (.addVxNn 1 0xFF) State.reset = .next t ∧ vf ∉ destRegs (.addVxNn 1 0xFF)) ∧
    (∃ t : State, exec (.ldVxMem 1) State.reset = .next t ∧ (2 : Reg) ∉ destRegs (.ldVxMem 1)) :=
  ⟨⟨_, rfl, by decide⟩, ⟨_, rfl, by decide⟩⟩

/-- O42: the bytes just before and just after the three that FX33 stores, and a form that stores nothing. -/
theorem witness_O42 :
    (∃ t : State, exec (.ldBVx 1) { State.reset with i := 0x300 } = .next t) ∧
    0x2FF < ({ State.reset with i := 0x300 } : State).ea 0 ∧
    ({ State.reset with i := 0x300 } : State).ea 0 + storeLength (.ldBVx 1) ≤ 0x303 ∧
    (∃ t : State, exec .cls State.reset = .next t) ∧ State.reset.ea 0 + storeLength .cls ≤ 0 :=
  ⟨⟨_, rfl⟩, by decide, by decide, ⟨_, rfl⟩, by decide⟩

/-- O43: an instruction that meets every premise at once. -/
theorem witness_O43 :
    ∃ t : State, exec (.ldVxNn 1 2) State.reset = .next t ∧ writesI (.ldVxNn 1 2) = false ∧ isDisplay (.ldVxNn 1 2) = false ∧
      (∀ x, Instr.ldVxNn 1 2 ≠ .ldDtVx x) ∧ (∀ nnn, Instr.ldVxNn 1 2 ≠ .call nnn) :=
  ⟨_, rfl, by decide, by decide, fun _ h => Instr.noConfusion h, fun _ h => Instr.noConfusion h⟩

theorem witness_O44 : ∃ t : State, exec (.skp 1) State.reset = .next t := ⟨_, rfl⟩

/-- O45: a call that completes and a call that faults. -/
theorem witness_O45 :
    (∃ t : State, exec (.skp 1) State.reset = .next t ∧ t.fault = none) ∧
    (∃ t : State, exec (.skp 1) (regs [(1, 0x10)]) = .next t ∧ t.fault ≠ none) :=
  ⟨⟨_, rfl, by decide⟩, ⟨_, rfl, by decide⟩⟩

/-- O46: a frame that ticks, and the two kinds that do not. -/
theorem witness_O46 :
    (State.reset.runState = .running ∧ State.reset.fault = none) ∧
    ({ State.reset with runState := .paused } : State).runState ≠ .running ∧
    ({ State.reset with fault := some ⟨.memRange, 0, none, 4096⟩ } : State).fault ≠ none := by decide

theorem witness_O47 : ({ State.reset with runState := .paused } : State).openFrame.runState ≠ .running := by decide

/-- O48: each way a batch ends, the limit exactly reached, with a tick and without, and the last count at which it goes on. -/
theorem witness_O48 :
    (let s : State := { State.reset with fault := some ⟨.memRange, 0, none, 4096⟩, runState := .halted }
     s.fault ≠ none ∧ s.runState ≠ .running) ∧
    (let s : State := { State.reset with call := ⟨true, none⟩, st := 1 }
     s.call.redraw = true ∧ s.runState = .running ∧ s.fault = none) ∧
    (let s : State := { State.reset with batch := 599, dt := 1 }
     s.ipf ≤ s.batch + 1 ∧ s.runState = .running ∧ s.fault = none) ∧
    (State.reset.fault = none ∧ State.reset.call.redraw = false ∧ 598 + 1 < ({ State.reset with batch := 598 } : State).ipf) := by
  decide

theorem witness_O49 : State.reset.batch = 0 := by decide

theorem witness_O50 : ∃ s t : State, s.batch ≠ 0 ∧ s.inputs = [[.quit]] ∧ step s = .next t :=
  ⟨{ State.reset with batch := 1, inputs := [[.quit]] }, _, by decide, by decide, rfl⟩

theorem witness_O52 : ∃ s t : State, s.Inv ∧ s.batch ≠ 0 ∧ step s = .next t :=
  ⟨{ State.reset with batch := 599 }, _, by decide, by decide, rfl⟩

/-- O54: a Halted core with a fault, the host pressing keys and toggling pause. -/
theorem witness_O54 :
    ∃ s t : State, s.runState = .halted ∧ s.fault ≠ none ∧ (∀ as ∈ s.inputs.head?, ∀ a ∈ as, a.replaces = false) ∧ step s = .next t :=
  ⟨{ State.reset with
      runState := .halted
      fault := some ⟨.keyRange, 0x200, some 0xE19E, 16⟩
      inputs := [[.pauseToggle, .keypad (Vector.replicate 16 true)]] }, _, by decide, by decide, by decide, rfl⟩

/-- O55: a jump to its own address, between frames with no inputs and inside a frame. -/
theorem witness_O55 :
    (∃ s t : State, s.Parked ∧ s.inputs = [] ∧ step s = .next t) ∧ (∃ s t : State, s.Parked ∧ s.batch ≠ 0 ∧ step s = .next t) :=
  ⟨⟨parkedAt200, _, ⟨by decide, by decide, by decide, 0x200, by decide, by decide⟩, by decide, rfl⟩,
   ⟨{ parkedAt200 with batch := 1 }, _, ⟨by decide, by decide, by decide, 0x200, by decide, by decide⟩, by decide, rfl⟩⟩

/-- O56: an image of one byte, addresses in each of the four parts. -/
theorem witness_O56 :
    imageFits [0x12] = true ∧ (79 < 80 ∧ 80 ≤ 80 ∧ 0x1FF < 0x200) ∧ 0 < [(0x12 : Byte)].length ∧
    0x200 + [(0x12 : Byte)].length ≤ 0x201 := by decide

theorem witness_O57_fits : (List.replicate 3584 (0 : Byte)).length ≤ 3584 := by rw [List.length_replicate]

theorem witness_O57_too_large : 3584 < (List.replicate 3585 (0 : Byte)).length := by rw [List.length_replicate]; omega

theorem witness_O58 :
    State.reset.runState = .running ∧ ({ State.reset with runState := .paused } : State).runState = .paused ∧
    ({ State.reset with runState := .halted } : State).runState = .halted := by decide

/-- O58, the host's turn: a keypad action and a reset listed before the coming frame, another list left for the one after. -/
theorem witness_O58_turn :
    ∃ (s u : State) (now : List HostAction) (later : List (List HostAction)), s.batch = 0 ∧ s.inputs = now :: later ∧
      u = now.foldl State.applyAction { s with inputs := later } ∧ now = [.keypad (Vector.replicate 16 true), .resetMachine] ∧
      later ≠ [] :=
  ⟨{ State.reset with inputs := [[.keypad (Vector.replicate 16 true), .resetMachine], [.quit]] }, _, _, _,
    by decide, rfl, rfl, rfl, by decide⟩

/-- O60: a full stack and a stack of one entry. -/
theorem witness_O60 :
    (fullStack 0x202).sp.val = (15 : Fin 16).val + 1 ∧ ({ State.reset with sp := 1 } : State).sp.val = (0 : Fin 16).val + 1 := by decide

end Sys2Proof.Tests
end

/-! The fields of an instruction word (30_encoding.md R61): the decoder takes each one as a slice of bits, the document as a mask
and a shift. One lemma turns a slice into a shift and a mask, and every field is an instance of it. -/

namespace Sys2Proof.Machine

open Sys2Proof.Laws

theorem extractLsb'_toNat_eq_shiftRight_and_mask {n : Nat} (w : BitVec n) (start len : Nat) :
    (w.extractLsb' start len).toNat = (w.toNat >>> start) &&& (2 ^ len - 1) := by
  rw [BitVec.extractLsb'_toNat, Nat.and_two_pow_sub_one_eq_mod]

theorem fieldsOf_nnn_toNat (w : Word) : (fieldsOf w).nnn.toNat = w.toNat &&& 0x0FFF :=
  extractLsb'_toNat_eq_shiftRight_and_mask w 0 12

theorem fieldsOf_nn_toNat (w : Word) : (fieldsOf w).nn.toNat = w.toNat &&& 0x00FF :=
  extractLsb'_toNat_eq_shiftRight_and_mask w 0 8

theorem fieldsOf_n_toNat (w : Word) : (fieldsOf w).n.toNat = w.toNat &&& 0x000F :=
  extractLsb'_toNat_eq_shiftRight_and_mask w 0 4

theorem fieldsOf_x_val (w : Word) : (fieldsOf w).x.val = (w.toNat >>> 8) &&& 0x0F :=
  extractLsb'_toNat_eq_shiftRight_and_mask w 8 4

theorem fieldsOf_y_val (w : Word) : (fieldsOf w).y.val = (w.toNat >>> 4) &&& 0x0F :=
  extractLsb'_toNat_eq_shiftRight_and_mask w 4 4

/-- The class digit: no bit lies above it, so it is the quotient of the word. -/
theorem fieldsOf_cls_toNat (w : Word) : (fieldsOf w).cls.toNat = w.toNat / 0x1000 := by
  have hw : w.toNat / 0x1000 < 2 ^ 4 := Nat.div_lt_of_lt_mul w.isLt
  calc (fieldsOf w).cls.toNat
      = (w.toNat >>> 12) % 2 ^ 4 := BitVec.extractLsb'_toNat 12 4 w
    _ = w.toNat / 0x1000 % 2 ^ 4 := by rw [Nat.shiftRight_eq_div_pow]
    _ = w.toNat / 0x1000 := Nat.mod_eq_of_lt hw

theorem fieldsOf_cls_in_place (w : Word) : (fieldsOf w).cls.toNat * 0x1000 = w.toNat &&& 0xF000 := by
  rw [fieldsOf_cls_toNat, and_F000 _ w.isLt]

/-- Settles O4: the low fields and X and Y are slices read as shift and mask, and the class digit is the bits of `0xF000` moved
down, so multiplying by `0x1000` puts them back in place. -/
theorem fieldsAreMasksAndShifts : Obligations.FieldsAreMasksAndShifts := by
  intro w
  exact ⟨fieldsOf_cls_in_place w, fieldsOf_nnn_toNat w, fieldsOf_nn_toNat w, fieldsOf_n_toNat w, fieldsOf_x_val w,
    fieldsOf_y_val w⟩

end Sys2Proof.Machine

/-! The redraw output of a call (40_execution_cycle.md R74). An instruction starts with empty outputs; only the two display
instructions write the redraw output, and fault entry, which leaves the core Halted, takes it back. -/

namespace Sys2Proof.Machine

/-! ### The shared operations leave the outputs of the call alone -/

@[simp] theorem State.skipIf_call (s : State) (c : Bool) : (s.skipIf c).call = s.call := by
  rw [State.skipIf_eq, State.setPc_call]

theorem State.popPc_call {s t : State} (h : s.popPc = some t) : t.call = s.call := by
  unfold State.popPc at h
  split at h
  · cases h
  · cases h; rfl

theorem State.push_call {s t : State} {w : Word} (h : s.push w = some t) : t.call = s.call := by
  unfold State.push at h
  split at h
  · cases h; rfl
  · cases h

theorem State.writeBytes_call {s t : State} {a : Nat} {bs : List Byte} (h : s.writeBytes a bs = .ok t) : t.call = s.call := by
  rw [(State.writeBytes_ok bs s t a h).1]

theorem State.readRegs_call {s t : State} {a : Nat} {rs : List Reg} (h : s.readRegs a rs = .ok t) : t.call = s.call := by
  rw [(State.readRegs_ok rs s t a h).1]

/-! ### An instruction that may raise and leaves the core Running did not raise -/

theorem eq_ok_of_conclude_running {i : Instr} {s t : State} {r : Attempt State} (h : conclude i s r = .next t)
    (hrun : t.runState = .running) : r = .ok t := by
  obtain hok | ⟨e, -, rfl⟩ := conclude_cases h
  · exact hok
  · cases hrun

theorem exists_ok_of_conclude_map_running {α : Type} {i : Instr} {s t : State} {r : Attempt α} {f : α → State}
    (h : conclude i s (r.map f) = .next t) (hrun : t.runState = .running) : ∃ a, r = .ok a ∧ t = f a := by
  have hok := eq_ok_of_conclude_running h hrun
  cases r with
  | ok a => cases hok; exact ⟨a, rfl, rfl⟩
  | error e => cases hok

/-! ### The redraw output of one instruction -/

theorem execRet_redraw {s t : State} (h : execRet s = .next t) : t.call.redraw = false := by
  unfold execRet at h
  split at h
  next u hpop => cases h; rw [State.popPc_call hpop]; rfl
  next => cases h; rfl

theorem execCall_redraw {nnn : BitVec 12} {s t : State} (h : execCall nnn s = .next t) : t.call.redraw = false := by
  unfold execCall at h
  split at h
  next u hpush => cases h; rw [State.setPc_call, State.push_call hpush]; rfl
  next => cases h; rfl

theorem execLdVxK_redraw {x : Reg} {s t : State} (h : execLdVxK x s = .next t) : t.call.redraw = false := by
  unfold execLdVxK at h
  split at h
  next => split at h <;> cases h <;> rfl
  next => split at h <;> cases h <;> rfl

/-- An instruction that did not fault has requested a redraw exactly when it is 00E0 or DXYN (R74). -/
theorem exec_redraw {i : Instr} {s t : State} (h : exec i s = .next t) (hrun : t.runState = .running) :
    t.call.redraw = isDisplay i := by
  cases i
  case ret => exact execRet_redraw h
  case call => exact execCall_redraw h
  case ldVxK => exact execLdVxK_redraw h
  case seVxNn | sneVxNn | seVxVy | sneVxVy => cases h; rw [State.skipIf_call]; rfl
  case drw =>
    obtain ⟨u, -, rfl⟩ := exists_ok_of_conclude_map_running h hrun
    rfl
  case skp | sknp =>
    obtain ⟨k, -, rfl⟩ := exists_ok_of_conclude_map_running h hrun
    rw [State.skipIf_call]; rfl
  case ldBVx => rw [State.writeBytes_call (eq_ok_of_conclude_running h hrun)]; rfl
  case ldMemVx =>
    obtain ⟨u, hu, rfl⟩ := exists_ok_of_conclude_map_running h hrun
    rw [State.setI_call, State.writeBytes_call hu]; rfl
  case ldVxMem =>
    obtain ⟨u, hu, rfl⟩ := exists_ok_of_conclude_map_running h hrun
    rw [State.setI_call, State.readRegs_call hu]; rfl
  all_goals cases h; rfl

/-- Settles O9, by what a call can do: the fetch fault is excluded by the fetched word, an instruction is `exec_redraw`, and an
unrecognized word only signals its diagnostic. -/
theorem redrawOutput : Obligations.RedrawOutput := by
  intro s t w hf hcall _ hrun
  obtain ⟨r, hr, -⟩ | ⟨w', i, hw, hd, hexec⟩ | ⟨w', e, hw, hd, rfl⟩ := executorCall_cases hcall
  · rw [hf] at hr; cases hr
  · rw [hf] at hw; cases hw
    simp [hd, exec_redraw hexec hrun]
  · rw [hf] at hw; cases hw
    simp [hd, CallOutput.none]

end Sys2Proof.Machine

/-! The decoder answers by the opcode table (30_encoding.md R64, R69): the masked bits of a word are its class digit with nothing,
its function nibble or its function byte, and these are what the decoder tests. So a word that matches no row is rejected, and the
call on it is the unrecognized opcode (40_execution_cycle.md R76). -/

namespace Sys2Proof.Machine

open Sys2Proof.Laws

/-! ### The three kinds of mask -/

theorem and_F000_toNat (w : Word) : (w &&& 0xF000).toNat = (fieldsOf w).cls.toNat * 0x1000 :=
  (fieldsOf_cls_in_place w).symm

theorem and_F00F_toNat (w : Word) : (w &&& 0xF00F).toNat = (fieldsOf w).cls.toNat * 0x1000 + (fieldsOf w).n.toNat := by
  rw [fieldsOf_cls_toNat, fieldsOf_n_toNat, Nat.and_two_pow_sub_one_eq_mod _ 4]
  exact and_F000_low _ 4 w.isLt (by omega)

theorem and_F0FF_toNat (w : Word) : (w &&& 0xF0FF).toNat = (fieldsOf w).cls.toNat * 0x1000 + (fieldsOf w).nn.toNat := by
  rw [fieldsOf_cls_toNat, fieldsOf_nn_toNat, Nat.and_two_pow_sub_one_eq_mod _ 8]
  exact and_F000_low _ 8 w.isLt (by omega)

theorem row_matches_iff_toNat (r : OpRow) (w : Word) : r.matches w = true ↔ (w &&& r.mask).toNat = r.pattern.toNat := by
  rw [OpRow.matches, beq_iff_eq, BitVec.toNat_inj]

theorem row_mem_opTable (i : Instr) : i.row ∈ opTable := by
  cases i <;> simp [Instr.row, opTable]

/-! ### Answers of the decoder that the table allows -/

/-- Whether `r` may be the decoder's answer on `w`: an instruction it names has a row that `w` matches. `decode_decodesToRow` ties
it to the decoder. -/
def DecodesToRow (w : Word) (r : Except DecodeReject Instr) : Prop := ∀ i, r = .ok i → i.row.matches w = true

theorem DecodesToRow.ok {w : Word} {i : Instr} (h : i.row.matches w = true) : DecodesToRow w (.ok i) := by
  intro j hj
  cases hj
  exact h

theorem DecodesToRow.error {w : Word} (e : DecodeReject) : DecodesToRow w (.error e) := by
  intro j hj
  cases hj

theorem DecodesToRow.ite {w : Word} {c : Prop} [Decidable c] {a b : Except DecodeReject Instr} (ha : c → DecodesToRow w a)
    (hb : ¬ c → DecodesToRow w b) : DecodesToRow w (if c then a else b) := by
  split
  · exact ha ‹_›
  · exact hb ‹_›

theorem DecodesToRow.ok_of_class {w : Word} {i : Instr} {c : BitVec 4}
    (hi : i.row = ⟨BitVec.ofNat 16 (c.toNat * 0x1000), 0xF000⟩) (hc : (fieldsOf w).cls = c) : DecodesToRow w (.ok i) := by
  refine .ok ((row_matches_iff_toNat _ w).mpr ?_)
  rw [hi, and_F000_toNat, hc, BitVec.toNat_ofNat]
  omega

theorem DecodesToRow.ok_of_nibble {w : Word} {i : Instr} {c n : BitVec 4} (hc : (fieldsOf w).cls = c)
    (hi : i.row = ⟨BitVec.ofNat 16 (c.toNat * 0x1000 + n.toNat), 0xF00F⟩) (hn : (fieldsOf w).n = n) :
    DecodesToRow w (.ok i) := by
  refine .ok ((row_matches_iff_toNat _ w).mpr ?_)
  rw [hi, and_F00F_toNat, hc, hn, BitVec.toNat_ofNat]
  omega

theorem DecodesToRow.ok_of_byte {w : Word} {i : Instr} {c : BitVec 4} {nn : BitVec 8} (hc : (fieldsOf w).cls = c)
    (hi : i.row = ⟨BitVec.ofNat 16 (c.toNat * 0x1000 + nn.toNat), 0xF0FF⟩) (hn : (fieldsOf w).nn = nn) :
    DecodesToRow w (.ok i) := by
  refine .ok ((row_matches_iff_toNat _ w).mpr ?_)
  rw [hi, and_F0FF_toNat, hc, hn, BitVec.toNat_ofNat]
  omega

/-! ### The decoder, class by class (R63) -/

theorem decodeClass0_decodesToRow (w : Word) : DecodesToRow w (decodeClass0 w) :=
  .ite (fun h => .ok (h ▸ by decide)) fun _ => .ite (fun h => .ok (h ▸ by decide)) fun _ => .error _

theorem decodeClass8_decodesToRow {w : Word} (hc : (fieldsOf w).cls = 0x8) : DecodesToRow w (decodeClass8 w (fieldsOf w)) :=
  .ite (.ok_of_nibble hc rfl) fun _ => .ite (.ok_of_nibble hc rfl) fun _ => .ite (.ok_of_nibble hc rfl) fun _ =>
  .ite (.ok_of_nibble hc rfl) fun _ => .ite (.ok_of_nibble hc rfl) fun _ => .ite (.ok_of_nibble hc rfl) fun _ =>
  .ite (.ok_of_nibble hc rfl) fun _ => .ite (.ok_of_nibble hc rfl) fun _ => .ite (.ok_of_nibble hc rfl) fun _ =>
  .error _

theorem decodeClassE_decodesToRow {w : Word} (hc : (fieldsOf w).cls = 0xE) : DecodesToRow w (decodeClassE w (fieldsOf w)) :=
  .ite (.ok_of_byte hc rfl) fun _ => .ite (.ok_of_byte hc rfl) fun _ => .error _

theorem decodeClassF_decodesToRow {w : Word} (hc : (fieldsOf w).cls = 0xF) : DecodesToRow w (decodeClassF w (fieldsOf w)) :=
  .ite (.ok_of_byte hc rfl) fun _ => .ite (.ok_of_byte hc rfl) fun _ => .ite (.ok_of_byte hc rfl) fun _ =>
  .ite (.ok_of_byte hc rfl) fun _ => .ite (.ok_of_byte hc rfl) fun _ => .ite (.ok_of_byte hc rfl) fun _ =>
  .ite (.ok_of_byte hc rfl) fun _ => .ite (.ok_of_byte hc rfl) fun _ => .ite (.ok_of_byte hc rfl) fun _ =>
  .error _

/-- The decoder tests the class digits 0 to E in order; what passes all the tests has class F. -/
theorem decode_decodesToRow (w : Word) : DecodesToRow w (decode w) :=
  .ite (fun _ => decodeClass0_decodesToRow w) fun h0 =>
  .ite (.ok_of_class rfl) fun h1 =>
  .ite (.ok_of_class rfl) fun h2 =>
  .ite (.ok_of_class rfl) fun h3 =>
  .ite (.ok_of_class rfl) fun h4 =>
  .ite (fun hc => .ite (.ok_of_nibble hc rfl) fun _ => .error _) fun h5 =>
  .ite (.ok_of_class rfl) fun h6 =>
  .ite (.ok_of_class rfl) fun h7 =>
  .ite decodeClass8_decodesToRow fun h8 =>
  .ite (fun hc => .ite (.ok_of_nibble hc rfl) fun _ => .error _) fun h9 =>
  .ite (.ok_of_class rfl) fun hA =>
  .ite (.ok_of_class rfl) fun hB =>
  .ite (.ok_of_class rfl) fun hC =>
  .ite (.ok_of_class rfl) fun hD =>
  .ite decodeClassE_decodesToRow fun hE =>
  have hF : (fieldsOf w).cls = 0xF := by bv_omega
  decodeClassF_decodesToRow hF

theorem decode_error_of_no_row {w : Word} (h : ∀ r ∈ opTable, r.matches w = false) : ∃ e, decode w = .error e := by
  cases hd : decode w with
  | ok i =>
    have hmatch := decode_decodesToRow w i hd
    rw [h i.row (row_mem_opTable i)] at hmatch
    cases hmatch
  | error e => exact ⟨e, rfl⟩

/-! ### The call on an unrecognized word, and a batch that goes on -/

theorem executorCall_of_decode_error {s : State} {w : Word} {e : DecodeReject} (hf : s.fetch = .ok w)
    (hd : decode w = .error e) : executorCall s = .next (s.enter.signal .unrecognizedOpcode s.pc w) := by
  simp only [executorCall, hf, execWord, hd, execUnrecognized]

theorem State.countCall_batch (s : State) : s.countCall.batch = s.batch + 1 := by rw [State.countCall_eq]

/-- A diagnostic is not among the ends of a batch (R81, D17): without a fault, a redraw or the limit, the call is only counted. -/
theorem State.afterCall_of_not_ends {s : State} (hf : s.fault = none) (hr : s.call.redraw = false)
    (hlimit : s.batch + 1 < s.ipf) : s.afterCall = s.countCall := by
  have hleft : ¬ s.ipf ≤ s.batch + 1 := Nat.not_le.mpr hlimit
  rw [State.afterCall_eq]
  simp [hf, hr, hleft]

/-- Settles O7: a word with no row does not decode, so the call only enters and signals, and such a call does not end the batch. -/
theorem unrecognizedOpcodeAdvances : Obligations.UnrecognizedOpcodeAdvances := by
  intro s w hf hrow
  obtain ⟨e, hd⟩ := decode_error_of_no_row hrow
  have hcall := executorCall_of_decode_error hf hd
  refine ⟨⟨.unrecognizedOpcode, s.pc, w⟩, rfl, rfl, hcall, fun hfault hlimit => ⟨_, hcall, ?_⟩⟩
  have hafter : (s.enter.signal .unrecognizedOpcode s.pc w).afterCall = (s.enter.signal .unrecognizedOpcode s.pc w).countCall :=
    State.afterCall_of_not_ends hfault rfl hlimit
  rw [hafter, State.countCall_batch]
  rfl

end Sys2Proof.Machine

/-! The jump and the four skips that compare bytes (41_control_flow.md R89, R91 to R94). Every skip is one conditional advance of
PC after the advance past the fetched word, so one lemma says what a skip does, and each instruction is its test put into it. -/

namespace Sys2Proof.Machine

/-- A skip counts both advances of R72 from the address of the instruction, each modulo 65536. -/
theorem State.enter_skipIf (s : State) (c : Bool) :
    s.enter.skipIf c = { s with pc := if c then s.pc + 4 else s.pc + 2, call := CallOutput.none } := by
  have htwice : s.pc + 2 + 2 = s.pc + 4 := BitVec.add_assoc s.pc 2 2
  rw [State.skipIf_eq, State.enter_pc, htwice]
  rfl

theorem State.enter_skipIf_beq (s : State) (a b : Byte) :
    s.enter.skipIf (a == b) = { s with pc := if a = b then s.pc + 4 else s.pc + 2, call := CallOutput.none } := by
  simp only [State.enter_skipIf, beq_iff_eq]

theorem State.enter_skipIf_bne (s : State) (a b : Byte) :
    s.enter.skipIf (a != b) = { s with pc := if a = b then s.pc + 2 else s.pc + 4, call := CallOutput.none } := by
  simp only [State.enter_skipIf, bne_iff_ne, ite_not]

/-! ### The instructions through their shared operations -/

theorem exec_seVxNn (x : Reg) (nn : BitVec 8) (s : State) :
    exec (.seVxNn x nn) s = .next (s.enter.skipIf (s.getV x == nn)) := rfl

theorem exec_sneVxNn (x : Reg) (nn : BitVec 8) (s : State) :
    exec (.sneVxNn x nn) s = .next (s.enter.skipIf (s.getV x != nn)) := rfl

theorem exec_seVxVy (x y : Reg) (s : State) :
    exec (.seVxVy x y) s = .next (s.enter.skipIf (s.getV x == s.getV y)) := rfl

theorem exec_sneVxVy (x y : Reg) (s : State) :
    exec (.sneVxVy x y) s = .next (s.enter.skipIf (s.getV x != s.getV y)) := rfl

theorem exec_jp (nnn : BitVec 12) (s : State) : exec (.jp nnn) s = .next (s.enter.setPc (zext16 nnn)) := rfl

/-- Settles O15: the two instructions are the skip on equality and the skip on difference of VX and NN. -/
theorem skipsOnByte : Obligations.SkipsOnByte := by
  intro x nn s
  rw [exec_seVxNn, exec_sneVxNn, State.enter_skipIf_beq, State.enter_skipIf_bne]
  exact ⟨rfl, rfl⟩

/-- Settles O16: the two instructions are the skip on equality and the skip on difference of VX and VY. -/
theorem skipsOnRegister : Obligations.SkipsOnRegister := by
  intro x y s
  rw [exec_seVxVy, exec_sneVxVy, State.enter_skipIf_beq, State.enter_skipIf_bne]
  exact ⟨rfl, rfl⟩

/-- 12 bits fit in the 16 of PC and I. -/
theorem zext16_toNat (nnn : BitVec 12) : (zext16 nnn).toNat = nnn.toNat :=
  BitVec.toNat_setWidth_of_le (by decide)

/-- Settles O11: the jump overwrites the advanced PC with NNN, which zero extension keeps as a number. -/
theorem jumpSetsPc : Obligations.JumpSetsPc := by
  intro nnn s
  exact ⟨_, exec_jp nnn s, zext16_toNat nnn, rfl⟩

end Sys2Proof.Machine

/-! The register loads and the flag arithmetic (42_register_alu.md R98 to R105 and R107, 45_keypad_timers.md R125). Each of these
instructions ends in one of two state operations: a byte into VX, or a byte into VX and then the flag into VF. One lemma per
operation gives the registers and the frame; an instruction adds the value of its byte and of its flag. -/

namespace Sys2Proof.Machine

/-! ### The two ways to complete -/

@[simp] theorem State.getV_resultThenFlag (s : State) (x q : Reg) (b : Byte) (c : Bool) :
    (s.resultThenFlag x b c).getV q = if vf = q then flagByte c else if x = q then b else s.getV q := by
  rw [State.resultThenFlag, State.getV_setFlag, State.getV_setV]

theorem completesInto_of_setV {i : Instr} {s : State} {x : Reg} {b : Byte} {result : Nat}
    (h : exec i s = .next (s.enter.setV x b)) (hresult : b.toNat = result) : CompletesInto i s x result := by
  refine ⟨_, h, ?_, fun r hrx => ?_, rfl⟩
  · rw [State.getV_setV, if_pos rfl, hresult]
  · rw [State.getV_setV, if_neg hrx.symm, State.enter_getV]

/-- The flag is written last, so VF holds it even where it is the destination of the result. -/
theorem completesWithFlag_of_resultThenFlag {i : Instr} {s : State} {x : Reg} {b : Byte} {c : Bool} {result flag : Nat}
    (h : exec i s = .next (s.enter.resultThenFlag x b c)) (hresult : b.toNat = result) (hflag : (flagByte c).toNat = flag) :
    CompletesWithFlag i s x result flag := by
  refine ⟨_, h, ?_, fun hx => ?_, fun r hrx hrf => ?_, rfl⟩
  · rw [State.getV_resultThenFlag, if_pos rfl, hflag]
  · rw [State.getV_resultThenFlag, if_neg hx.symm, if_pos rfl, hresult]
  · rw [State.getV_resultThenFlag, if_neg hrf.symm, if_neg hrx.symm, State.enter_getV]

theorem flagByte_carryOf_toNat (a b : Byte) : (flagByte (carryOf a b)).toNat = if a.toNat + b.toNat > 255 then 1 else 0 := by
  simp only [flagByte_toNat, carryOf, decide_eq_true_eq]

theorem flagByte_noBorrow_toNat (a b : Byte) : (flagByte (noBorrow a b)).toNat = if b.toNat ≤ a.toNat then 1 else 0 := by
  simp only [flagByte_toNat, noBorrow, decide_eq_true_eq]

/-- 8XY5 and 8XY7 are this difference with the operands in the one order and in the other. -/
theorem completesWithFlag_of_difference {i : Instr} {s : State} {x : Reg} {a b : Byte}
    (h : exec i s = .next (s.enter.resultThenFlag x (diff8 a b) (noBorrow a b))) :
    CompletesWithFlag i s x ((a.toNat + 256 - b.toNat) % 256) (if b.toNat ≤ a.toNat then 1 else 0) := by
  have hdiff : (diff8 a b).toNat = (a.toNat + 256 - b.toNat) % 256 := by rw [diff8_toNat, Nat.add_comm 256]
  exact completesWithFlag_of_resultThenFlag h hdiff (flagByte_noBorrow_toNat a b)

/-! ### The instructions through their shared operations -/

theorem exec_ldVxNn (x : Reg) (nn : BitVec 8) (s : State) : exec (.ldVxNn x nn) s = .next (s.enter.setV x nn) := rfl

theorem exec_addVxNn (x : Reg) (nn : BitVec 8) (s : State) :
    exec (.addVxNn x nn) s = .next (s.enter.setV x (sum8 (s.getV x) nn)) := rfl

theorem exec_ldVxVy (x y : Reg) (s : State) : exec (.ldVxVy x y) s = .next (s.enter.setV x (s.getV y)) := rfl

theorem exec_ldVxDt (x : Reg) (s : State) : exec (.ldVxDt x) s = .next (s.enter.setV x s.dt) := rfl

theorem exec_orVxVy (x y : Reg) (s : State) :
    exec (.orVxVy x y) s = .next (s.enter.resultThenFlag x (s.getV x ||| s.getV y) false) := rfl

theorem exec_andVxVy (x y : Reg) (s : State) :
    exec (.andVxVy x y) s = .next (s.enter.resultThenFlag x (s.getV x &&& s.getV y) false) := rfl

theorem exec_xorVxVy (x y : Reg) (s : State) :
    exec (.xorVxVy x y) s = .next (s.enter.resultThenFlag x (s.getV x ^^^ s.getV y) false) := rfl

theorem exec_addVxVy (x y : Reg) (s : State) :
    exec (.addVxVy x y) s =
      .next (s.enter.resultThenFlag x (sum8 (s.getV x) (s.getV y)) (carryOf (s.getV x) (s.getV y))) := rfl

theorem exec_sub (x y : Reg) (s : State) :
    exec (.sub x y) s =
      .next (s.enter.resultThenFlag x (diff8 (s.getV x) (s.getV y)) (noBorrow (s.getV x) (s.getV y))) := rfl

theorem exec_subn (x y : Reg) (s : State) :
    exec (.subn x y) s =
      .next (s.enter.resultThenFlag x (diff8 (s.getV y) (s.getV x)) (noBorrow (s.getV y) (s.getV x))) := rfl

/-! ### The obligations -/

/-- Settles O18: each of the four writes one byte into VX, whose value is immediate or, for 7XNN, the sum modulo 256. -/
theorem registerLoads : Obligations.RegisterLoads := by
  intro x y nn s
  refine ⟨?ldImmediate, ?addImmediate, ?ldRegister, ?ldTimer⟩
  case ldImmediate => exact completesInto_of_setV (exec_ldVxNn x nn s) rfl
  case addImmediate => exact completesInto_of_setV (exec_addVxNn x nn s) (sum8_toNat (s.getV x) nn)
  case ldRegister => exact completesInto_of_setV (exec_ldVxVy x y s) rfl
  case ldTimer => exact completesInto_of_setV (exec_ldVxDt x s) rfl

/-- Settles O19: each of the three writes its bitwise result and then the flag false. -/
theorem logicClearsFlag : Obligations.LogicClearsFlag := by
  intro x y s
  refine ⟨?or, ?and, ?xor⟩
  case or => exact completesWithFlag_of_resultThenFlag (exec_orVxVy x y s) (BitVec.toNat_or _ _) rfl
  case and => exact completesWithFlag_of_resultThenFlag (exec_andVxVy x y s) (BitVec.toNat_and _ _) rfl
  case xor => exact completesWithFlag_of_resultThenFlag (exec_xorVxVy x y s) (BitVec.toNat_xor _ _) rfl

/-- Settles O20: the sum modulo 256, then the carry, both of the operands before the call. -/
theorem addSetsCarry : Obligations.AddSetsCarry := by
  intro x y s
  exact completesWithFlag_of_resultThenFlag (exec_addVxVy x y s) (sum8_toNat (s.getV x) (s.getV y))
    (flagByte_carryOf_toNat (s.getV x) (s.getV y))

/-- Settles O21: the difference VX - VY with its no-borrow flag. -/
theorem subSetsNoBorrow : Obligations.SubSetsNoBorrow := by
  intro x y s
  exact completesWithFlag_of_difference (exec_sub x y s)

/-- Settles O22: the difference VY - VX with its no-borrow flag. -/
theorem subnSetsNoBorrow : Obligations.SubnSetsNoBorrow := by
  intro x y s
  exact completesWithFlag_of_difference (exec_subn x y s)

end Sys2Proof.Machine

/-! The three instructions that load I (43_index_memory.md R111 to R113). Each of them is one write of I after the advance of PC, so
one lemma gives the new I and the frame; an instruction adds the value of its word. -/

namespace Sys2Proof.Machine

theorem completes_of_setI {i : Instr} {s : State} {w : Word} {result : Nat} (h : exec i s = .next (s.enter.setI w))
    (hresult : w.toNat = result) :
    ∃ t, exec i s = .next t ∧ t.i.toNat = result ∧
      t = { s with i := t.i, pc := s.pc + 2, call := { redraw := false, diag := none } } :=
  ⟨_, h, hresult, rfl⟩

/-! ### The words written -/

theorem byteToWord_toNat (b : Byte) : (byteToWord b).toNat = b.toNat :=
  BitVec.toNat_setWidth_of_le (by decide)

theorem add_byteToWord_toNat (w : Word) (b : Byte) : (w + byteToWord b).toNat = (w.toNat + b.toNat) % 65536 := by
  rw [BitVec.toNat_add, byteToWord_toNat]

/-- The product is at most 255 times 5, so the 16 bits of I hold it whole. -/
theorem glyphAddress_toNat (b : Byte) : (glyphAddress b).toNat = b.toNat * 5 := by
  have hb : b.toNat < 256 := b.isLt
  have hfits : b.toNat * 5 < 65536 := by omega
  rw [glyphAddress, BitVec.toNat_ofNat, Nat.mod_eq_of_lt hfits]

/-! ### The instructions through their shared operation -/

theorem exec_ldINnn (nnn : BitVec 12) (s : State) : exec (.ldINnn nnn) s = .next (s.enter.setI (zext16 nnn)) := rfl

theorem exec_addIVx (x : Reg) (s : State) :
    exec (.addIVx x) s = .next (s.enter.setI (s.i + byteToWord (s.getV x))) := rfl

theorem exec_ldFVx (x : Reg) (s : State) : exec (.ldFVx x) s = .next (s.enter.setI (glyphAddress (s.getV x))) := rfl

/-- Settles O26: each of the three writes one word into I, namely NNN zero-extended, the sum modulo 65536, or VX times 5. -/
theorem indexLoads : Obligations.IndexLoads := by
  intro nnn x s
  refine ⟨?load, ?add, ?glyph⟩
  case load => exact completes_of_setI (exec_ldINnn nnn s) (zext16_toNat nnn)
  case add => exact completes_of_setI (exec_addIVx x s) (add_byteToWord_toNat s.i (s.getV x))
  case glyph => exact completes_of_setI (exec_ldFVx x s) (glyphAddress_toNat (s.getV x))

end Sys2Proof.Machine

/-! The display instructions (44_display.md R117 to R121). Both end in a redraw, which ends the batch whatever the picture was. A
DXYN that completes is the relation `Draws` from `State.drawStart`, the call with VF cleared, so each fact about it is a fact about
that relation; a picture drawn twice cancels because a pixel flips twice or not at all. -/

namespace Sys2Proof.Machine

/-! ### The redraw ends the batch -/

theorem State.closeFrame_batch (s : State) : s.closeFrame.batch = 0 := by rw [State.closeFrame_eq]

theorem State.afterCall_batch_of_redraw {s : State} (hredraw : s.call.redraw = true) : s.afterCall.batch = 0 := by
  have hends : (s.fault.isSome || s.call.redraw || decide (s.ipf ≤ s.batch + 1)) = true := by simp [hredraw]
  rw [State.afterCall_eq, if_pos hends, State.closeFrame_batch]

theorem exec_cls (s : State) : exec .cls s = .next ({ s.enter with display := Display.clear }.requestRedraw) := rfl

/-- Settles O33: the one write besides the call's own is the unlit framebuffer, and the redraw closes the frame. -/
theorem clearScreen : Obligations.ClearScreen := by
  intro s
  exact ⟨_, exec_cls s, Display.get_clear, rfl, State.afterCall_batch_of_redraw rfl⟩

/-! ### DXYN as a relation of two states -/

/-- The state from which DXYN draws: the call entered with VF cleared (R118), and the redraw that the call requests in the end. -/
def State.drawStart (s : State) : State := (s.enter.setFlag false).requestRedraw

@[simp] theorem State.drawStart_i (s : State) : s.drawStart.i = s.i := rfl
@[simp] theorem State.drawStart_byteAt (s : State) (a : Nat) : s.drawStart.byteAt a = s.byteAt a := rfl
@[simp] theorem State.drawStart_pixel (s : State) (px : Fin 64) (py : Fin 32) : s.drawStart.pixel px py = s.pixel px py := rfl

@[simp] theorem State.drawStart_getV (s : State) (q : Reg) : s.drawStart.getV q = if vf = q then 0 else s.getV q :=
  State.getV_setFlag s.enter q false

@[simp] theorem collides_drawStart (s : State) (cov : Fin 64 → Fin 32 → Bool) : Collides s.drawStart cov ↔ Collides s cov :=
  Iff.rfl

theorem Draws.requestRedraw {s t : State} {cov : Fin 64 → Fin 32 → Bool} (h : Draws s t cov) :
    Draws s.requestRedraw t.requestRedraw cov := by
  obtain ⟨hframe, hpixel, hother, hhit, hmiss⟩ := h
  exact ⟨congrArg State.requestRedraw hframe, hpixel, hother, hhit, hmiss⟩

theorem State.drawRows_draws {rows y a : Nat} (x0 : Nat) (s : State)
    (hrows : visibleRows y rows = 0 ∨ a + visibleRows y rows ≤ 4096) :
    ∃ t, s.drawRows x0 y a rows = .ok t ∧ Draws s t (spriteCovers s.byteAt a x0 y rows) := by
  have hspec := State.drawRows_spec x0 rows s y a
  rwa [if_pos hrows] at hspec

theorem exec_drw (x y : Reg) (n : BitVec 4) (s : State) :
    exec (.drw x y n) s = conclude (.drw x y n) s
      (((s.enter.setFlag false).drawRows (originX (s.getV x)) (originY (s.getV y)) (s.ea 0) n.toNat).map
        State.requestRedraw) := rfl

/-- What DXYN does when every visible row can be read (R118, D15). -/
theorem exec_drw_draws {y : Reg} {n : BitVec 4} {s : State} (x : Reg)
    (hrows : s.rowsShown y n = 0 ∨ s.i.toNat + s.rowsShown y n ≤ 4096) :
    ∃ t, exec (.drw x y n) s = .next t ∧ Draws s.drawStart t (s.picture x y n) := by
  obtain ⟨t, hdraw, hdraws⟩ := State.drawRows_draws (originX (s.getV x)) (s.enter.setFlag false) hrows
  have hexec : exec (.drw x y n) s = .next t.requestRedraw := by
    rw [exec_drw, State.ea, originY, Nat.add_zero, hdraw]
    rfl
  exact ⟨t.requestRedraw, hexec, hdraws.requestRedraw⟩

/-! ### What a completed draw leaves -/

theorem Draws.vf_of_collides {s t : State} {cov : Fin 64 → Fin 32 → Bool} (h : Draws s.drawStart t cov)
    (hhit : Collides s cov) : (t.getV vf).toNat = 1 := by
  obtain ⟨-, -, -, hset, -⟩ := h
  rw [hset hhit]
  rfl

theorem Draws.vf_of_unlit {s t : State} {cov : Fin 64 → Fin 32 → Bool} (h : Draws s.drawStart t cov)
    (hunlit : ∀ px py, cov px py = true → s.pixel px py = false) : (t.getV vf).toNat = 0 := by
  have hmiss : ¬ Collides s cov := fun ⟨px, py, hcov, hlit⟩ => by simp [hunlit px py hcov] at hlit
  obtain ⟨-, -, -, -, hkept⟩ := h
  rw [hkept hmiss, State.drawStart_getV, if_pos rfl]
  rfl

theorem Draws.drawStart_pixel {s t : State} {cov : Fin 64 → Fin 32 → Bool} (h : Draws s.drawStart t cov)
    (px : Fin 64) (py : Fin 32) : t.pixel px py = (s.pixel px py ^^ cov px py) := by
  obtain ⟨-, hpixel, -⟩ := h
  exact hpixel px py

theorem Draws.drawStart_getV {s t : State} {cov : Fin 64 → Fin 32 → Bool} (h : Draws s.drawStart t cov) {q : Reg}
    (hq : q ≠ vf) : t.getV q = s.getV q := by
  obtain ⟨-, -, hother, -⟩ := h
  rw [hother q hq, State.drawStart_getV, if_neg hq.symm]

theorem Draws.drawStart_i {s t : State} {cov : Fin 64 → Fin 32 → Bool} (h : Draws s.drawStart t cov) : t.i = s.i := by
  obtain ⟨hframe, -⟩ := h
  rw [hframe, State.drawStart_i]

theorem Draws.drawStart_byteAt {s t : State} {cov : Fin 64 → Fin 32 → Bool} (h : Draws s.drawStart t cov) :
    t.byteAt = s.byteAt := by
  obtain ⟨hframe, -⟩ := h
  rw [hframe]
  rfl

/-- The sprite drawn next at the same place is the same: neither its bytes nor its origin lie in what a draw writes. -/
theorem Draws.picture_eq {s t : State} {cov : Fin 64 → Fin 32 → Bool} (h : Draws s.drawStart t cov) {x y : Reg}
    (hx : x ≠ vf) (hy : y ≠ vf) (n : BitVec 4) : t.picture x y n = s.picture x y n := by
  rw [State.picture, State.picture, h.drawStart_byteAt, h.drawStart_i, h.drawStart_getV hx, h.drawStart_getV hy]

theorem Draws.rowsShown_eq {s t : State} {cov : Fin 64 → Fin 32 → Bool} (h : Draws s.drawStart t cov) {y : Reg}
    (hy : y ≠ vf) (n : BitVec 4) : t.rowsShown y n = s.rowsShown y n := by
  rw [State.rowsShown, State.rowsShown, h.drawStart_getV hy]

/-- A picture drawn twice is gone: XOR is its own inverse (R121). -/
theorem Draws.display_of_twice {s t u : State} {cov : Fin 64 → Fin 32 → Bool} (h1 : Draws s.drawStart t cov)
    (h2 : Draws t.drawStart u cov) : u.display = s.display := by
  refine Display.ext_get fun px py => ?_
  calc u.pixel px py
      = (t.pixel px py ^^ cov px py) := h2.drawStart_pixel px py
    _ = (s.pixel px py ^^ cov px py ^^ cov px py) := by rw [h1.drawStart_pixel px py]
    _ = s.pixel px py := by rw [Bool.xor_assoc, Bool.xor_self, Bool.xor_false]

/-- What the first draw lights on a clear screen lies under the second. -/
theorem Draws.collides_of_clear {s t : State} {cov : Fin 64 → Fin 32 → Bool} (h : Draws s.drawStart t cov)
    (hclear : ∀ px py, s.pixel px py = false) (hcov : ∃ px py, cov px py = true) : Collides t cov := by
  obtain ⟨px, py, hbit⟩ := hcov
  exact ⟨px, py, hbit, by rw [h.drawStart_pixel, hclear, hbit]; rfl⟩

/-- Settles O36: both draws are `Draws` with one picture, since the first keeps the bytes, I, VX and VY that give it. -/
theorem drawTwiceRestores : Obligations.DrawTwiceRestores := by
  intro x y n s t hx hy hrows hexec
  obtain ⟨t', hexec', hfirst⟩ := exec_drw_draws x hrows
  obtain rfl : t' = t := by rw [hexec'] at hexec; injection hexec
  have hrows' : t'.rowsShown y n = 0 ∨ t'.i.toNat + t'.rowsShown y n ≤ 4096 := by
    rwa [hfirst.rowsShown_eq hy, hfirst.drawStart_i]
  obtain ⟨u, hexecu, hsecond⟩ := exec_drw_draws x hrows'
  rw [hfirst.picture_eq hx hy] at hsecond
  have hdisplay : u.display = s.display := hfirst.display_of_twice hsecond
  refine ⟨u, hexecu, hdisplay, hsecond.vf_of_collides, hsecond.vf_of_unlit, fun hclear hcov => ⟨fun px py => ?_, ?_⟩⟩
  · rw [State.pixel, hdisplay]
    exact hclear px py
  · exact hsecond.vf_of_collides (hfirst.collides_of_clear hclear hcov)

end Sys2Proof.Machine

/-! The two instructions that set a timer (45_keypad_timers.md R126, R127). Each of them is one write of its timer after the advance
of PC; the tick at the frame's end then takes one off the byte just written (60_exceptions.md R144). -/

namespace Sys2Proof.Machine

/-! ### The instructions through their shared operations -/

theorem exec_ldDtVx (x : Reg) (s : State) : exec (.ldDtVx x) s = .next (s.enter.setDt (s.getV x)) := rfl

theorem exec_ldStVx (x : Reg) (s : State) : exec (.ldStVx x) s = .next (s.enter.setSt (s.getV x)) := rfl

/-! ### A timer that was just set, after one tick -/

theorem State.tick_dt_setDt_toNat (s : State) (b : Byte) : (s.setDt b).tick.dt.toNat = b.toNat - 1 := by
  rw [State.tick_dt, State.setDt_dt, decToZero_toNat]

theorem State.tick_st_setSt_toNat (s : State) (b : Byte) : (s.setSt b).tick.st.toNat = b.toNat - 1 := by
  rw [State.tick_st, State.setSt_st, decToZero_toNat]

/-- Settles O39: each of the two writes VX into its timer, and the tick counts that byte down. -/
theorem timersSetThenTick : Obligations.TimersSetThenTick := by
  intro x s
  refine ⟨?delay, ?sound⟩
  case delay =>
    exact ⟨_, exec_ldDtVx x s, State.setDt_dt _ _, State.tick_dt_setDt_toNat s.enter (s.getV x), rfl⟩
  case sound =>
    exact ⟨_, exec_ldStVx x s, State.setSt_st _ _, State.tick_st_setSt_toNat s.enter (s.getV x), rfl⟩

end Sys2Proof.Machine

/-! The round trips between words and instructions (30_encoding.md R61, R63, R69). One lemma carries them all: a word that matches
the row of an instruction decodes to that instruction with its operands replaced by the fields of the word. Decoding a word the
encoder packed, and packing the fields of a word that decodes, are then facts about the fields alone. -/

namespace Sys2Proof

open Machine Laws

/-! ### The fixed bits of a word that matches a row -/

theorem cls_of_matches {w : Word} {r : OpRow} (h : r.matches w = true) (hm : r.mask = 0xF000) :
    (fieldsOf w).cls = r.pattern.extractLsb' 12 4 := by
  change (fieldsOf w).cls = (fieldsOf r.pattern).cls
  rw [row_matches_iff_toNat, hm, and_F000_toNat] at h
  apply BitVec.eq_of_toNat_eq
  rw [fieldsOf_cls_toNat r.pattern, ← h]
  omega

theorem nibble_of_matches {w : Word} {r : OpRow} (h : r.matches w = true) (hm : r.mask = 0xF00F) :
    (fieldsOf w).cls = r.pattern.extractLsb' 12 4 ∧ (fieldsOf w).n = r.pattern.extractLsb' 0 4 := by
  change (fieldsOf w).cls = (fieldsOf r.pattern).cls ∧ (fieldsOf w).n = (fieldsOf r.pattern).n
  have hn := (fieldsOf w).n.isLt
  rw [row_matches_iff_toNat, hm, and_F00F_toNat] at h
  constructor <;> apply BitVec.eq_of_toNat_eq
  · rw [fieldsOf_cls_toNat r.pattern, ← h]
    omega
  · rw [fieldsOf_n_toNat r.pattern, ← h, Nat.and_two_pow_sub_one_eq_mod _ 4]
    omega

theorem byte_of_matches {w : Word} {r : OpRow} (h : r.matches w = true) (hm : r.mask = 0xF0FF) :
    (fieldsOf w).cls = r.pattern.extractLsb' 12 4 ∧ (fieldsOf w).nn = r.pattern.extractLsb' 0 8 := by
  change (fieldsOf w).cls = (fieldsOf r.pattern).cls ∧ (fieldsOf w).nn = (fieldsOf r.pattern).nn
  have hnn := (fieldsOf w).nn.isLt
  rw [row_matches_iff_toNat, hm, and_F0FF_toNat] at h
  constructor <;> apply BitVec.eq_of_toNat_eq
  · rw [fieldsOf_cls_toNat r.pattern, ← h]
    omega
  · rw [fieldsOf_nn_toNat r.pattern, ← h, Nat.and_two_pow_sub_one_eq_mod _ 8]
    omega

theorem eq_of_matches_full {w : Word} {r : OpRow} (h : r.matches w = true) (hm : r.mask = 0xFFFF) : w = r.pattern := by
  have hall : w &&& 0xFFFF = w := BitVec.and_allOnes
  rwa [OpRow.matches, hm, beq_iff_eq, hall] at h

/-! ### An instruction with the operands of a word -/

/-- The instruction of the same row whose operands are the fields `f` (R61). `decode_of_matches` ties it to the decoder. -/
def Instr.withFields (f : Fields) : Instr → Instr
  | .cls => .cls
  | .ret => .ret
  | .jp _ => .jp f.nnn
  | .call _ => .call f.nnn
  | .seVxNn _ _ => .seVxNn f.x f.nn
  | .sneVxNn _ _ => .sneVxNn f.x f.nn
  | .seVxVy _ _ => .seVxVy f.x f.y
  | .ldVxNn _ _ => .ldVxNn f.x f.nn
  | .addVxNn _ _ => .addVxNn f.x f.nn
  | .ldVxVy _ _ => .ldVxVy f.x f.y
  | .orVxVy _ _ => .orVxVy f.x f.y
  | .andVxVy _ _ => .andVxVy f.x f.y
  | .xorVxVy _ _ => .xorVxVy f.x f.y
  | .addVxVy _ _ => .addVxVy f.x f.y
  | .sub _ _ => .sub f.x f.y
  | .shr _ _ => .shr f.x f.y
  | .subn _ _ => .subn f.x f.y
  | .shl _ _ => .shl f.x f.y
  | .sneVxVy _ _ => .sneVxVy f.x f.y
  | .ldINnn _ => .ldINnn f.nnn
  | .jpV0 _ => .jpV0 f.nnn
  | .rnd _ _ => .rnd f.x f.nn
  | .drw _ _ _ => .drw f.x f.y f.n
  | .skp _ => .skp f.x
  | .sknp _ => .sknp f.x
  | .ldVxDt _ => .ldVxDt f.x
  | .ldVxK _ => .ldVxK f.x
  | .ldDtVx _ => .ldDtVx f.x
  | .ldStVx _ => .ldStVx f.x
  | .addIVx _ => .addIVx f.x
  | .ldFVx _ => .ldFVx f.x
  | .ldBVx _ => .ldBVx f.x
  | .ldMemVx _ => .ldMemVx f.x
  | .ldVxMem _ => .ldVxMem f.x

theorem withFields_row (i : Instr) (f : Fields) : (i.withFields f).row = i.row := by cases i <;> rfl

/-- The decoder accepts every word of every row, and reads the operands off its fields (R63, R69). -/
theorem decode_of_matches {i : Instr} {w : Word} (h : i.row.matches w = true) :
    decode w = .ok (i.withFields (fieldsOf w)) := by
  cases i
  case cls | ret => rw [eq_of_matches_full h rfl]; rfl
  case jp | call | seVxNn | sneVxNn | ldVxNn | addVxNn | ldINnn | jpV0 | rnd | drw =>
    simp [Instr.withFields, Instr.row, decode, cls_of_matches h rfl]
  case seVxVy | sneVxVy =>
    obtain ⟨hc, hn⟩ := nibble_of_matches h rfl
    simp [Instr.withFields, Instr.row, decode, hc, hn]
  case ldVxVy | orVxVy | andVxVy | xorVxVy | addVxVy | sub | shr | subn | shl =>
    obtain ⟨hc, hn⟩ := nibble_of_matches h rfl
    simp [Instr.withFields, Instr.row, decode, decodeClass8, hc, hn]
  case skp | sknp =>
    obtain ⟨hc, hn⟩ := byte_of_matches h rfl
    simp [Instr.withFields, Instr.row, decode, decodeClassE, hc, hn]
  all_goals
    obtain ⟨hc, hn⟩ := byte_of_matches h rfl
    simp [Instr.withFields, Instr.row, decode, decodeClassF, hc, hn]

theorem eq_withFields_of_decode {w : Word} {i : Instr} (h : decode w = .ok i) : i = i.withFields (fieldsOf w) := by
  have hd := decode_of_matches (decode_decodesToRow w i h)
  rw [h] at hd
  injection hd

/-! ### The fields of a packed word -/

theorem fieldsOf_packA_nnn (c : Nat) (nnn : BitVec 12) : (fieldsOf (packA c nnn)).nnn = nnn := by
  have hnnn := nnn.isLt
  apply BitVec.eq_of_toNat_eq
  simp only [fieldsOf, packA, BitVec.extractLsb'_toNat, BitVec.toNat_ofNat, Nat.shiftRight_zero]
  omega

theorem fieldsOf_packXNN_x (c : Nat) (x : Reg) (nn : BitVec 8) : (fieldsOf (packXNN c x nn)).x = x := by
  have hx := x.isLt
  have hnn := nn.isLt
  apply Fin.ext
  simp only [fieldsOf, packXNN, BitVec.val_toFin, BitVec.extractLsb'_toNat, BitVec.toNat_ofNat, Nat.shiftRight_eq_div_pow]
  omega

theorem fieldsOf_packXNN_nn (c : Nat) (x : Reg) (nn : BitVec 8) : (fieldsOf (packXNN c x nn)).nn = nn := by
  have hnn := nn.isLt
  apply BitVec.eq_of_toNat_eq
  simp only [fieldsOf, packXNN, BitVec.extractLsb'_toNat, BitVec.toNat_ofNat, Nat.shiftRight_zero]
  omega

theorem fieldsOf_packXYN_x (c : Nat) (x y : Reg) (n : BitVec 4) : (fieldsOf (packXYN c x y n)).x = x := by
  have hx := x.isLt
  have hy := y.isLt
  have hn := n.isLt
  apply Fin.ext
  simp only [fieldsOf, packXYN, BitVec.val_toFin, BitVec.extractLsb'_toNat, BitVec.toNat_ofNat, Nat.shiftRight_eq_div_pow]
  omega

theorem fieldsOf_packXYN_y (c : Nat) (x y : Reg) (n : BitVec 4) : (fieldsOf (packXYN c x y n)).y = y := by
  have hy := y.isLt
  have hn := n.isLt
  apply Fin.ext
  simp only [fieldsOf, packXYN, BitVec.val_toFin, BitVec.extractLsb'_toNat, BitVec.toNat_ofNat, Nat.shiftRight_eq_div_pow]
  omega

theorem fieldsOf_packXYN_n (c : Nat) (x y : Reg) (n : BitVec 4) : (fieldsOf (packXYN c x y n)).n = n := by
  have hn := n.isLt
  apply BitVec.eq_of_toNat_eq
  simp only [fieldsOf, packXYN, BitVec.extractLsb'_toNat, BitVec.toNat_ofNat, Nat.shiftRight_zero]
  omega

theorem withFields_fieldsOf_encode (i : Instr) : i.withFields (fieldsOf (encode i)) = i := by
  cases i <;> simp only [encode, Instr.withFields, fieldsOf_packA_nnn, fieldsOf_packXNN_x, fieldsOf_packXNN_nn,
    fieldsOf_packXYN_x, fieldsOf_packXYN_y, fieldsOf_packXYN_n]

/-! ### A word packed from its own fields -/

theorem packA_fieldsOf {w : Word} {c : BitVec 4} (hc : (fieldsOf w).cls = c) : packA c.toNat (fieldsOf w).nnn = w := by
  have hw := w.isLt
  subst hc
  apply BitVec.eq_of_toNat_eq
  rw [packA, fieldsOf_cls_toNat]
  simp only [fieldsOf, BitVec.extractLsb'_toNat, BitVec.toNat_ofNat, Nat.shiftRight_zero]
  omega

theorem packXNN_fieldsOf {w : Word} {c : BitVec 4} {nn : BitVec 8} (hc : (fieldsOf w).cls = c) (hnn : (fieldsOf w).nn = nn) :
    packXNN c.toNat (fieldsOf w).x nn = w := by
  have hw := w.isLt
  subst hc hnn
  apply BitVec.eq_of_toNat_eq
  rw [packXNN, fieldsOf_cls_toNat]
  simp only [fieldsOf, BitVec.val_toFin, BitVec.extractLsb'_toNat, BitVec.toNat_ofNat, Nat.shiftRight_eq_div_pow]
  omega

theorem packXYN_fieldsOf {w : Word} {c n : BitVec 4} (hc : (fieldsOf w).cls = c) (hn : (fieldsOf w).n = n) :
    packXYN c.toNat (fieldsOf w).x (fieldsOf w).y n = w := by
  have hw := w.isLt
  subst hc hn
  apply BitVec.eq_of_toNat_eq
  rw [packXYN, fieldsOf_cls_toNat]
  simp only [fieldsOf, BitVec.val_toFin, BitVec.extractLsb'_toNat, BitVec.toNat_ofNat, Nat.shiftRight_eq_div_pow]
  omega

theorem encode_withFields_of_matches {i : Instr} {w : Word} (h : i.row.matches w = true) :
    encode (i.withFields (fieldsOf w)) = w := by
  cases i
  case cls | ret => exact (eq_of_matches_full h rfl).symm
  case jp | call | ldINnn | jpV0 =>
    simpa [encode, Instr.withFields, Instr.row] using packA_fieldsOf (cls_of_matches h rfl)
  case seVxNn | sneVxNn | ldVxNn | addVxNn | rnd =>
    simpa [encode, Instr.withFields, Instr.row] using packXNN_fieldsOf (cls_of_matches h rfl) rfl
  case drw =>
    simpa [encode, Instr.withFields, Instr.row] using packXYN_fieldsOf (cls_of_matches h rfl) rfl
  case seVxVy | sneVxVy | ldVxVy | orVxVy | andVxVy | xorVxVy | addVxVy | sub | shr | subn | shl =>
    obtain ⟨hc, hn⟩ := nibble_of_matches h rfl
    simpa [encode, Instr.withFields, Instr.row] using packXYN_fieldsOf hc hn
  all_goals
    obtain ⟨hc, hn⟩ := byte_of_matches h rfl
    simpa [encode, Instr.withFields, Instr.row] using packXNN_fieldsOf hc hn

/-! ### The table -/

theorem encode_matches (i : Instr) : i.row.matches (encode i) = true := by
  refine beq_iff_eq.mpr ?_
  cases i
  case cls | ret => rfl
  case jp | call | ldINnn | jpV0 => exact packA_class _ _
  case seVxNn | sneVxNn | ldVxNn | addVxNn | rnd => exact packXNN_class _ _ _
  case drw => exact packXYN_class _ _ _ _
  case seVxVy | sneVxVy | ldVxVy | orVxVy | andVxVy | xorVxVy | addVxVy | sub | shr | subn | shl =>
    exact packXYN_function _ _ _ _
  all_goals exact packXNN_function _ _ _

/-- One instruction of each row, in the order of the table. -/
def rowExamples : List Instr :=
  [.cls, .ret, .jp 0, .call 0, .seVxNn 0 0, .sneVxNn 0 0, .seVxVy 0 0, .ldVxNn 0 0, .addVxNn 0 0, .ldVxVy 0 0, .orVxVy 0 0,
    .andVxVy 0 0, .xorVxVy 0 0, .addVxVy 0 0, .sub 0 0, .shr 0 0, .subn 0 0, .shl 0 0, .sneVxVy 0 0, .ldINnn 0, .jpV0 0,
    .rnd 0 0, .drw 0 0 0, .skp 0, .sknp 0, .ldVxDt 0, .ldVxK 0, .ldDtVx 0, .ldStVx 0, .addIVx 0, .ldFVx 0, .ldBVx 0,
    .ldMemVx 0, .ldVxMem 0]

theorem opTable_eq_rows : opTable = rowExamples.map Instr.row := rfl

theorem exists_row_eq_of_mem {r : OpRow} (h : r ∈ opTable) : ∃ i : Instr, i.row = r := by
  rw [opTable_eq_rows] at h
  obtain ⟨i, -, hi⟩ := List.mem_map.mp h
  exact ⟨i, hi⟩

/-- Whether `r`, if it rejects, rejects `w` as unrecognized. `decode_rejectsUnrecognized` ties it to the decoder. -/
def RejectsUnrecognized (w : Word) (r : Except DecodeReject Instr) : Prop := ∀ e, r = .error e → e = .unrecognized w

theorem RejectsUnrecognized.ok {w : Word} {i : Instr} : RejectsUnrecognized w (.ok i) := nofun

theorem RejectsUnrecognized.error {w : Word} : RejectsUnrecognized w (.error (.unrecognized w)) := by
  intro e he
  cases he
  rfl

theorem RejectsUnrecognized.ite {w : Word} {c : Prop} [Decidable c] {a b : Except DecodeReject Instr}
    (ha : RejectsUnrecognized w a) (hb : RejectsUnrecognized w b) : RejectsUnrecognized w (if c then a else b) := by
  split
  · exact ha
  · exact hb

theorem decodeClass8_rejectsUnrecognized (w : Word) (f : Fields) : RejectsUnrecognized w (decodeClass8 w f) :=
  .ite .ok <| .ite .ok <| .ite .ok <| .ite .ok <| .ite .ok <| .ite .ok <| .ite .ok <| .ite .ok <| .ite .ok .error

theorem decodeClassF_rejectsUnrecognized (w : Word) (f : Fields) : RejectsUnrecognized w (decodeClassF w f) :=
  .ite .ok <| .ite .ok <| .ite .ok <| .ite .ok <| .ite .ok <| .ite .ok <| .ite .ok <| .ite .ok <| .ite .ok .error

/-- The decoder rejects a word in one way only (R64): class by class, every test ends in an instruction or in this rejection. -/
theorem decode_rejectsUnrecognized (w : Word) : RejectsUnrecognized w (decode w) :=
  .ite (.ite .ok <| .ite .ok .error) <|
  .ite .ok <| .ite .ok <| .ite .ok <| .ite .ok <|
  .ite (.ite .ok .error) <|
  .ite .ok <| .ite .ok <|
  .ite (decodeClass8_rejectsUnrecognized w _) <|
  .ite (.ite .ok .error) <|
  .ite .ok <| .ite .ok <| .ite .ok <| .ite .ok <|
  .ite (.ite .ok <| .ite .ok .error) <|
  decodeClassF_rejectsUnrecognized w _

theorem decode_encode (i : Instr) : decode (encode i) = .ok i := by
  rw [decode_of_matches (encode_matches i), withFields_fieldsOf_encode]

/-- Settles O1: the word matches its row, and the fields read back are the operands packed. -/
theorem decodeEncodeRoundTrip : Obligations.DecodeEncodeRoundTrip := fun i _ => decode_encode i

/-- Settles O2: the word matches the row of its instruction, so its fields pack to the word again. -/
theorem encodeDecodeRoundTrip : Obligations.EncodeDecodeRoundTrip := by
  intro w i h
  rw [eq_withFields_of_decode h]
  exact encode_withFields_of_matches (decode_decodesToRow w i h)

/-- A row that a word matches is the row of the instruction it decodes to. -/
theorem decode_of_mem_matches {r : OpRow} {w : Word} (hr : r ∈ opTable) (h : r.matches w = true) :
    ∃ i, decode w = .ok i ∧ i.row = r := by
  obtain ⟨i, rfl⟩ := exists_row_eq_of_mem hr
  exact ⟨_, decode_of_matches h, withFields_row i _⟩

/-- Settles O3: a matching row decodes, the instruction decoded names its row, and so no word matches two. -/
theorem decoderIsTheTable : Obligations.DecoderIsTheTable := by
  intro w
  refine ⟨fun i hd => ⟨row_mem_opTable i, decode_decodesToRow w i hd⟩, fun r hr => decode_of_mem_matches hr, ?unique, ?reject⟩
  case unique =>
    intro r hr q hq hrw hqw
    obtain ⟨i, hi, rfl⟩ := decode_of_mem_matches hr hrw
    obtain ⟨j, hj, rfl⟩ := decode_of_mem_matches hq hqw
    rw [hi] at hj
    cases hj
    rfl
  case reject =>
    intro hnone
    obtain ⟨e, he⟩ := decode_error_of_no_row hnone
    rw [he, decode_rejectsUnrecognized w e he]

/-- Settles O5: twenty closed words, each decoded. -/
theorem sampleWordsDecode : Obligations.SampleWordsDecode := by
  unfold Obligations.SampleWordsDecode
  decide

end Sys2Proof

/-! The instructions on the return stack (41_control_flow.md R88, R90) and the jump with offset (R95). Each of the two stack
instructions is one equation per case of SP, which the statements read off. -/

namespace Sys2Proof.Machine

/-! ### The stack instructions, by case of SP -/

theorem exec_ret_of_entry {s : State} (h : s.sp.val ≠ 0) :
    exec .ret s = .next { s.enter with
      sp := ⟨s.sp.val - 1, by omega⟩, pc := s.stack[s.sp.val - 1]'(by omega) } := by
  have hpop := State.popPc_some (s := s.enter) h
  simp only [exec, execRet, hpop]
  rfl

theorem exec_ret_of_empty {s : State} (h : s.sp.val = 0) :
    exec .ret s = .next (s.enter.signal .stackUnderflow s.pc (encode .ret)) := by
  have hpop := State.popPc_none (s := s.enter) h
  simp only [exec, execRet, hpop]

theorem exec_call_of_room {s : State} (nnn : BitVec 12) (h : s.sp.val < 16) :
    exec (.call nnn) s = .next ({ s.enter with
      stack := s.stack.set s.sp.val (s.pc + 2), sp := ⟨s.sp.val + 1, by omega⟩ }.setPc (zext16 nnn)) := by
  have hpush := State.push_some (s := s.enter) s.enter.pc h
  simp only [exec, execCall, hpush]
  rfl

theorem exec_call_of_full {s : State} (nnn : BitVec 12) (h : s.sp.val = 16) :
    exec (.call nnn) s = .next (s.enter.signal .stackOverflow s.pc (encode (.call nnn))) := by
  have hpush := State.push_none (s := s.enter) s.enter.pc h
  simp only [exec, execCall, hpush]

theorem exec_jpV0 (nnn : BitVec 12) (s : State) :
    exec (.jpV0 nnn) s = .next (s.enter.setPc (byteToWord (s.getV 0) + zext16 nnn)) := rfl

/-! ### The stack array around a push -/

theorem getElem?_set_other {stack : Vector Word 16} {w : Word} {k : Nat} (hk : k < 16) {j : Nat} (hj : j ≠ k) :
    (stack.set k w)[j]? = stack[j]? := by
  rw [Vector.getElem?_set, if_neg hj.symm]

/-! ### The obligations -/

/-- Settles O12: a push below 16 entries, and the diagnostic alone on a full stack. -/
theorem callPushesReturnAddress : Obligations.CallPushesReturnAddress := by
  intro nnn s
  refine ⟨fun hroom => ⟨_, exec_call_of_room nnn hroom, zext16_toNat nnn, rfl, ?_, fun j hj => ?_, rfl⟩, fun hfull => ?_⟩
  · exact Vector.getElem?_set_self hroom
  · exact getElem?_set_other hroom hj
  · exact exec_call_of_full nnn hfull

/-- Settles O13: a pop of the entry below SP, and the diagnostic alone on an empty stack. -/
theorem returnPopsAddress : Obligations.ReturnPopsAddress := by
  intro s
  refine ⟨fun hentry => ⟨_, exec_ret_of_entry hentry, ?_, rfl, rfl⟩, exec_ret_of_empty⟩
  exact Vector.getElem?_eq_getElem _

/-- Settles O60: the pop, with SP written as the number of an entry plus one. -/
theorem returnCompletes : Obligations.ReturnCompletes := by
  intro s j hj
  have hentry : s.sp.val ≠ 0 := by omega
  rw [exec_ret_of_entry hentry]
  simp only [hj]
  rfl

/-- Settles O14: the call leaves the return address in the entry that the return takes. -/
theorem callThenReturn : Obligations.CallThenReturn := by
  intro nnn s hroom
  have hpushed : (s.stack.set s.sp.val (s.pc + 2))[(⟨s.sp.val, hroom⟩ : Fin 16)] = s.pc + 2 := Vector.getElem_set_self hroom
  have hret := returnCompletes { s.enter with
    pc := zext16 nnn, stack := s.stack.set s.sp.val (s.pc + 2), sp := ⟨s.sp.val + 1, by omega⟩ } ⟨s.sp.val, hroom⟩ rfl
  rw [hpushed] at hret
  exact ⟨_, _, exec_call_of_room nnn hroom, hret, rfl, rfl, fun j hj => getElem?_set_other hroom hj, rfl⟩

/-- Settles O17: 255 + 4095 is below 65536, so the 16-bit sum is the exact one. -/
theorem jumpWithOffset : Obligations.JumpWithOffset := by
  intro nnn s
  refine ⟨_, exec_jpV0 nnn s, ?_, rfl⟩
  have hv : (s.getV 0).toNat < 256 := (s.getV 0).isLt
  have hn : nnn.toNat < 4096 := nnn.isLt
  rw [State.setPc_pc, BitVec.toNat_add, byteToWord_toNat, zext16_toNat]
  omega

end Sys2Proof.Machine

/-! The two shifts and the random byte (42_register_alu.md R106, R108, R109). A shift writes its flag first and then reads VY again
(D6), so what VX gets depends on whether VY is the flag register: one lemma says so for any shift, and each of the two adds what its
bits are as numbers. -/

namespace Sys2Proof.Machine

/-! ### A flag, then a function of VY read again -/

/-- The state after the flag write and the shift by `f` of VY, read again (R97, D6). -/
def State.flagThenShift (s : State) (x y : Reg) (c : Bool) (f : Byte → Byte) : State :=
  (s.setFlag c).setV x (f ((s.setFlag c).getV y))

theorem exec_shr (x y : Reg) (s : State) :
    exec (.shr x y) s = .next (s.enter.flagThenShift x y (shiftedOutRight (s.getV y)) (· >>> 1)) := rfl

theorem exec_shl (x y : Reg) (s : State) :
    exec (.shl x y) s = .next (s.enter.flagThenShift x y (shiftedOutLeft (s.getV y)) (· <<< 1)) := rfl

theorem State.flagThenShift_writesOnlyV (s : State) (x y : Reg) (c : Bool) (f : Byte → Byte) :
    WritesOnlyV s (s.enter.flagThenShift x y c f) := rfl

@[simp] theorem State.getV_flagThenShift (s : State) (x y q : Reg) (c : Bool) (f : Byte → Byte) :
    (s.flagThenShift x y c f).getV q =
      if x = q then f (if y = vf then flagByte c else s.getV y) else if vf = q then flagByte c else s.getV q := by
  simp only [State.flagThenShift, State.getV_setV, State.getV_setFlag, eq_comm (a := vf) (b := y)]

/-- Where VX is not the flag register, VF holds the flag; VX holds the shift of what VY held after the flag write. -/
theorem State.flagThenShift_cases (s : State) (x y : Reg) (c : Bool) (f : Byte → Byte) :
    (s.flagThenShift x y c f).getV x = f (if y = vf then flagByte c else s.getV y) ∧
    (x ≠ vf → (s.flagThenShift x y c f).getV vf = flagByte c) ∧
    ∀ r, r ≠ x → r ≠ vf → (s.flagThenShift x y c f).getV r = s.getV r := by
  refine ⟨?_, fun hx => ?_, fun r hrx hrf => ?_⟩
  · rw [State.getV_flagThenShift, if_pos rfl]
  · rw [State.getV_flagThenShift, if_neg hx, if_pos rfl]
  · rw [State.getV_flagThenShift, if_neg hrx.symm, if_neg hrf.symm]

/-! ### The bits as numbers -/

theorem flagByte_shiftedOutRight_toNat (b : Byte) : (flagByte (shiftedOutRight b)).toNat = b.toNat % 2 := by
  rw [flagByte_toNat, shiftedOutRight, BitVec.getLsbD, Nat.testBit_zero]
  split <;> simp_all

theorem flagByte_shiftedOutLeft_toNat (b : Byte) : (flagByte (shiftedOutLeft b)).toNat = b.toNat / 128 := by
  have hb := b.isLt
  rw [flagByte_toNat, shiftedOutLeft, BitVec.getLsbD, Nat.testBit_eq_decide_div_mod_eq]
  simp only [decide_eq_true_eq]
  split <;> omega

theorem shiftRight_one_toNat (b : Byte) : (b >>> 1).toNat = b.toNat / 2 := by
  rw [BitVec.toNat_ushiftRight, Nat.shiftRight_eq_div_pow, Nat.pow_one]

theorem shiftLeft_one_toNat (b : Byte) : (b <<< 1).toNat = 2 * b.toNat % 256 := by
  rw [BitVec.toNat_shiftLeft, Nat.shiftLeft_eq, Nat.pow_one, Nat.mul_comm]

theorem flagByte_shiftRight_one_toNat (c : Bool) : (flagByte c >>> 1).toNat = 0 := by cases c <;> rfl

theorem flagByte_shiftLeft_one_toNat (c : Bool) : (flagByte c <<< 1).toNat = 2 * (flagByte c).toNat := by cases c <;> rfl

/-! ### The obligations -/

/-- Settles O23, by the cases of X and Y being the flag register: a flag shifted right leaves nothing. -/
theorem shiftRightByCase : Obligations.ShiftRightByCase := by
  intro x y s
  obtain ⟨hresult, hflag, hother⟩ := s.enter.flagThenShift_cases x y (shiftedOutRight (s.getV y)) (· >>> 1)
  refine ⟨_, exec_shr x y s, s.flagThenShift_writesOnlyV .., hother, ?_⟩
  by_cases hy : y = vf <;> by_cases hx : x = vf <;>
    simp only [hy, hx, if_true, if_false] at hresult hflag ⊢
  · rw [hresult, flagByte_shiftRight_one_toNat]
  · rw [hresult, hflag hx, flagByte_shiftRight_one_toNat, flagByte_shiftedOutRight_toNat]
    exact ⟨rfl, rfl⟩
  · rw [hresult, shiftRight_one_toNat, State.enter_getV]
  · rw [hresult, hflag hx, shiftRight_one_toNat, flagByte_shiftedOutRight_toNat, State.enter_getV]
    exact ⟨rfl, rfl⟩

/-- Settles O24, by the cases of X and Y being the flag register: a flag shifted left is twice the flag. -/
theorem shiftLeftByCase : Obligations.ShiftLeftByCase := by
  intro x y s
  obtain ⟨hresult, hflag, hother⟩ := s.enter.flagThenShift_cases x y (shiftedOutLeft (s.getV y)) (· <<< 1)
  refine ⟨_, exec_shl x y s, s.flagThenShift_writesOnlyV .., hother, ?_⟩
  by_cases hy : y = vf <;> by_cases hx : x = vf <;>
    simp only [hy, hx, if_true, if_false] at hresult hflag ⊢
  · rw [hresult, flagByte_shiftLeft_one_toNat, flagByte_shiftedOutLeft_toNat]
  · rw [hresult, hflag hx, flagByte_shiftLeft_one_toNat, flagByte_shiftedOutLeft_toNat]
    exact ⟨rfl, rfl⟩
  · rw [hresult, shiftLeft_one_toNat, State.enter_getV]
  · rw [hresult, hflag hx, shiftLeft_one_toNat, flagByte_shiftedOutLeft_toNat, State.enter_getV]
    exact ⟨rfl, rfl⟩

theorem exec_rnd (x : Reg) (nn : BitVec 8) (s : State) :
    exec (.rnd x nn) s = .next ({ s.enter with draws := s.draws + 1 }.setV x (Config.randomByte s.draws &&& nn)) := rfl

/-- Settles O25: whatever the byte drawn is, the mask leaves no bit outside NN. -/
theorem randomIsMasked : Obligations.RandomIsMasked := by
  intro x nn s
  have hmasked : Config.randomByte s.draws &&& nn &&& ~~~ nn = 0 := by
    rw [BitVec.and_assoc, BitVec.and_not_self]
    exact BitVec.and_zero
  refine ⟨_, exec_rnd x nn s, ?_, ?_, fun r hr => ?_, rfl⟩
  · rw [State.getV_setV, if_pos rfl]
  · rw [State.getV_setV, if_pos rfl, hmasked]
  · rw [State.getV_setV, if_neg hr.symm]
    rfl

end Sys2Proof.Machine

/-! The memory transfers FX33, FX55 and FX65 (43_index_memory.md R114 to R116) and the order of a store and a fetch (20_memory.md
R55). The two stores leave one relation, `Stores`, between the state before and after; the digits, the block and the bytes that the
next fetch sees are read off it. -/

namespace Sys2Proof.Machine

/-! ### When a run of accesses ends, and at which address it raises -/

theorem max_limit_eq_ite (a : Nat) : max a 4096 = if a < 4096 then 4096 else a := by
  split <;> omega

theorem State.exists_writeBytes_ok (s : State) {a : Nat} {bs : List Byte} (h : a + bs.length ≤ 4096) :
    ∃ t, s.writeBytes a bs = .ok t := by
  cases bs with
  | nil => exact ⟨s, rfl⟩
  | cons b bs => exact ⟨_, (State.writeBytes_eq b bs s a).trans (if_pos h)⟩

theorem State.writeBytes_out_of_range (s : State) {a : Nat} {bs : List Byte} (hne : bs ≠ []) (h : 4096 < a + bs.length) :
    s.writeBytes a bs = .error { kind := .memRange, addr := if a < 4096 then 4096 else a } := by
  cases bs with
  | nil => exact absurd rfl hne
  | cons b bs => rw [State.writeBytes_eq, if_neg (Nat.not_le.mpr h), max_limit_eq_ite]

theorem State.exists_readRegs_ok (s : State) {a : Nat} {rs : List Reg} (h : a + rs.length ≤ 4096) :
    ∃ t, s.readRegs a rs = .ok t := by
  cases rs with
  | nil => exact ⟨s, rfl⟩
  | cons r rs => exact ⟨_, (State.readRegs_eq r rs s a).trans (if_pos h)⟩

theorem State.readRegs_out_of_range (s : State) {a : Nat} {rs : List Reg} (hne : rs ≠ []) (h : 4096 < a + rs.length) :
    s.readRegs a rs = .error { kind := .memRange, addr := if a < 4096 then 4096 else a } := by
  cases rs with
  | nil => exact absurd rfl hne
  | cons r rs => rw [State.readRegs_eq, if_neg (Nat.not_le.mpr h), max_limit_eq_ite]

/-! ### The instructions through their shared operations -/

/-- The bytes of FX33, in the order they are stored (R114). -/
def State.digitBytes (s : State) (x : Reg) : List Byte := [hundreds (s.getV x), tens (s.getV x), ones (s.getV x)]

/-- The bytes of FX55, in the order they are stored (R115). -/
def State.blockBytes (s : State) (x : Reg) : List Byte := (blockTo x).map s.getV

theorem exec_ldBVx (x : Reg) (s : State) :
    exec (.ldBVx x) s = conclude (.ldBVx x) s (s.enter.writeBytes s.i.toNat (s.digitBytes x)) := rfl

theorem exec_ldMemVx (x : Reg) (s : State) :
    exec (.ldMemVx x) s =
      conclude (.ldMemVx x) s ((s.enter.writeBytes s.i.toNat (s.blockBytes x)).map fun t => t.setI (s.iPastBlock x)) := rfl

theorem exec_ldVxMem (x : Reg) (s : State) :
    exec (.ldVxMem x) s =
      conclude (.ldVxMem x) s ((s.enter.readRegs s.i.toNat (blockTo x)).map fun t => t.setI (s.iPastBlock x)) := rfl

theorem State.digitBytes_length (s : State) (x : Reg) : (s.digitBytes x).length = 3 := rfl

theorem State.digitBytes_ne_nil (s : State) (x : Reg) : s.digitBytes x ≠ [] := List.cons_ne_nil _ _

theorem blockTo_length (x : Reg) : (blockTo x).length = x.val + 1 := (blockTo_spec x).1

theorem State.blockBytes_length (s : State) (x : Reg) : (s.blockBytes x).length = x.val + 1 := by
  rw [State.blockBytes, List.length_map, blockTo_length]

theorem blockTo_ne_nil (x : Reg) : blockTo x ≠ [] := by
  apply List.ne_nil_of_length_pos
  rw [blockTo_length]
  exact Nat.succ_pos _

theorem State.blockBytes_ne_nil (s : State) (x : Reg) : s.blockBytes x ≠ [] := by
  rw [State.blockBytes, Ne, List.map_eq_nil_iff]
  exact blockTo_ne_nil x

theorem blockTo_getElem {x k : Reg} (h : k.val < (blockTo x).length) : (blockTo x)[k.val] = k := by
  obtain ⟨-, -, -, hval⟩ := blockTo_spec x
  exact Fin.ext (hval k.val h)

theorem State.iPastBlock_toNat (s : State) (x : Reg) : (s.iPastBlock x).toNat = (s.i.toNat + x.val + 1) % 65536 := by
  rw [State.iPastBlock, BitVec.toNat_add, BitVec.toNat_ofNat]
  omega

/-! ### What a store leaves -/

/-- What a store of `bs` from address I on leaves in memory: the bytes outside as they were and, over a canonical memory, the bytes
stored. -/
def Stores (s t : State) (bs : List Byte) : Prop :=
  (∀ a, a < s.i.toNat ∨ s.i.toNat + bs.length ≤ a → t.byteAt a = s.byteAt a) ∧
  (Memory.wf s.config.font s.memory = true → ∀ k (h : k < bs.length), t.byteAt (s.i.toNat + k) = bs[k])

theorem State.stores_of_writeBytes {s t : State} {bs : List Byte} (h : s.enter.writeBytes s.i.toNat bs = .ok t) :
    t = { s.enter with memory := t.memory } ∧ Stores s t bs := by
  obtain ⟨hframe, hout, hin⟩ := State.writeBytes_ok bs s.enter t s.i.toNat h
  exact ⟨hframe, hout, fun hwf => (hin hwf).2⟩

theorem exec_ldBVx_completes {s : State} (x : Reg) (h : s.i.toNat + 2 < 4096) :
    ∃ t, exec (.ldBVx x) s = .next t ∧ Stores s t (s.digitBytes x) ∧
      t = { s with memory := t.memory, pc := s.pc + 2, call := CallOutput.none } := by
  obtain ⟨t, ht⟩ := s.enter.exists_writeBytes_ok (bs := s.digitBytes x) h
  obtain ⟨hframe, hstores⟩ := State.stores_of_writeBytes ht
  exact ⟨t, by rw [exec_ldBVx, ht, conclude_ok], hstores, hframe⟩

theorem exec_ldMemVx_completes {s : State} (x : Reg) (h : s.i.toNat + x.val < 4096) :
    ∃ t, exec (.ldMemVx x) s = .next t ∧ Stores s t (s.blockBytes x) ∧
      t = { s with memory := t.memory, i := s.iPastBlock x, pc := s.pc + 2, call := CallOutput.none } := by
  have hfits : s.i.toNat + (s.blockBytes x).length ≤ 4096 := by rwa [State.blockBytes_length]
  obtain ⟨t, ht⟩ := s.enter.exists_writeBytes_ok hfits
  obtain ⟨hframe, hstores⟩ := State.stores_of_writeBytes ht
  refine ⟨t.setI (s.iPastBlock x), by rw [exec_ldMemVx, ht]; rfl, hstores, ?_⟩
  rw [hframe]
  rfl

/-- The byte at any address after a store, as a number. -/
theorem Stores.byteAt_toNat {s t : State} {bs : List Byte} (h : Stores s t bs)
    (hwf : Memory.wf s.config.font s.memory = true) (a : Nat) :
    (t.byteAt a).toNat = s.overwritten (bs.map BitVec.toNat) a := by
  obtain ⟨hout, hin⟩ := h
  unfold State.overwritten
  by_cases hlow : s.i.toNat ≤ a
  · rw [if_pos hlow]
    by_cases hhigh : a - s.i.toNat < bs.length
    · have hbyte := hin hwf (a - s.i.toNat) hhigh
      rw [Nat.add_sub_cancel' hlow] at hbyte
      rw [hbyte, List.getD_eq_getElem _ _ (by rwa [List.length_map]), List.getElem_map]
    · rw [hout a (.inr (by omega)), List.getD_eq_default _ _ (by rw [List.length_map]; omega)]
  · rw [if_neg hlow, hout a (.inl (by omega))]

/-! ### FX33 and FX55 in range -/

theorem hundreds_toNat (b : Byte) : (hundreds b).toNat = b.toNat / 100 := by
  have hb := b.isLt
  rw [hundreds, BitVec.toNat_ofNat]
  omega

theorem tens_toNat (b : Byte) : (tens b).toNat = b.toNat / 10 % 10 := by
  rw [tens, BitVec.toNat_ofNat]
  omega

theorem ones_toNat (b : Byte) : (ones b).toNat = b.toNat % 10 := by
  rw [ones, BitVec.toNat_ofNat]
  omega

/-- Settles O27: the three bytes stored are the digits. -/
theorem decimalDigitsStored : Obligations.DecimalDigitsStored := by
  intro x s hrange hwf
  obtain ⟨t, hexec, ⟨hout, hin⟩, hframe⟩ := exec_ldBVx_completes x hrange
  refine ⟨t, hexec, ?_, ?_, ?_, hout, hframe⟩
  · rw [← hundreds_toNat]
    exact congrArg BitVec.toNat (hin hwf 0 (by rw [State.digitBytes_length]; decide))
  · rw [← tens_toNat]
    exact congrArg BitVec.toNat (hin hwf 1 (by rw [State.digitBytes_length]; decide))
  · rw [← ones_toNat]
    exact congrArg BitVec.toNat (hin hwf 2 (by rw [State.digitBytes_length]; decide))

theorem State.blockBytes_getElem (s : State) {x k : Reg} (h : k.val < (s.blockBytes x).length) :
    (s.blockBytes x)[k.val] = s.getV k := by
  simp only [State.blockBytes, List.getElem_map]
  rw [blockTo_getElem]

theorem State.lt_blockBytes_length (s : State) {x k : Reg} (hk : k ≤ x) : k.val < (s.blockBytes x).length := by
  rw [State.blockBytes_length]
  exact Nat.lt_succ_of_le hk

/-- Settles O28: the k-th byte stored is Vk. -/
theorem blockStored : Obligations.BlockStored := by
  intro x s hrange hwf
  obtain ⟨t, hexec, ⟨hout, hin⟩, hframe⟩ := exec_ldMemVx_completes x hrange
  refine ⟨t, hexec, fun k hk => ?block, fun a ha => ?others, ?index, ?frame⟩
  case block => rw [hin hwf k.val (s.lt_blockBytes_length hk), s.blockBytes_getElem]
  case others => exact hout a (by rwa [State.blockBytes_length])
  case index => rw [hframe]; exact s.iPastBlock_toNat x
  case frame => rw [hframe]; rfl

/-! ### FX65 in range -/

/-- Settles O29: the k-th byte read goes into Vk, and a register above VX is not in the block. -/
theorem blockLoaded : Obligations.BlockLoaded := by
  intro x s hrange
  have hfits : s.i.toNat + (blockTo x).length ≤ 4096 := by rwa [blockTo_length]
  obtain ⟨t, ht⟩ := s.enter.exists_readRegs_ok hfits
  obtain ⟨hframe, hout, hin⟩ := State.readRegs_ok (blockTo x) s.enter t s.i.toNat ht
  obtain ⟨hlength, hnodup, hmem, -⟩ := blockTo_spec x
  refine ⟨t.setI (s.iPastBlock x), by rw [exec_ldVxMem, ht]; rfl, fun k hk => ?block, fun r hr => ?above,
    s.iPastBlock_toNat x, ?frame⟩
  case block =>
    have hlt : k.val < (blockTo x).length := by rw [hlength]; exact Nat.lt_succ_of_le hk
    have hread := hin hnodup k.val hlt
    rw [blockTo_getElem] at hread
    exact hread
  case above => exact hout r (by rw [hmem]; exact not_le.mpr hr)
  case frame => rw [hframe]; rfl

/-! ### Out of range -/

/-- Settles O30: the run of accesses raises at its first address of 4096 or more, and the raise is fault entry. -/
theorem transfersOutOfRangeFault : Obligations.TransfersOutOfRangeFault := by
  intro x s
  refine ⟨fun h => ?digits, fun h => ?store, fun h => ?load⟩
  case digits =>
    have hover : 4096 < s.i.toNat + (s.digitBytes x).length := Nat.lt_succ_of_le h
    rw [TakesFault, exec_ldBVx, s.enter.writeBytes_out_of_range (s.digitBytes_ne_nil x) hover]
    rfl
  case store =>
    have hover : 4096 < s.i.toNat + (s.blockBytes x).length := by rw [State.blockBytes_length]; exact Nat.lt_succ_of_le h
    rw [TakesFault, exec_ldMemVx, s.enter.writeBytes_out_of_range (s.blockBytes_ne_nil x) hover]
    rfl
  case load =>
    have hover : 4096 < s.i.toNat + (blockTo x).length := by rw [blockTo_length]; exact Nat.lt_succ_of_le h
    rw [TakesFault, exec_ldVxMem, s.enter.readRegs_out_of_range (blockTo_ne_nil x) hover]
    rfl

/-! ### A store, then a load or a fetch -/

theorem State.byteAt_congr {s t : State} (hmemory : s.memory = t.memory) (hconfig : s.config = t.config) :
    s.byteAt = t.byteAt := by
  funext a
  rw [State.byteAt, State.byteAt, hmemory, hconfig]

/-- Settles O31: the load reads the bytes where the store left the registers. -/
theorem storeThenLoadRestores : Obligations.StoreThenLoadRestores := by
  intro x s t u hrange hwf hstore hmemory hconfig hi
  obtain ⟨t', hstore', hblock, -, hindex, hframe⟩ := blockStored x s hrange hwf
  obtain rfl : t' = t := by rw [hstore'] at hstore; injection hstore
  obtain ⟨w, hload, hregs, -, hindex', -⟩ := blockLoaded x u (by rwa [hi])
  have hbytes : u.byteAt = t'.byteAt := State.byteAt_congr hmemory (by rw [hconfig, hframe])
  refine ⟨w, hload, BitVec.eq_of_toNat_eq ?_, fun k hk => ?_⟩
  · rw [hindex', hindex, hi]
  · rw [hregs k hk, hbytes, hi, hblock k hk]

theorem State.digitBytes_toNat (s : State) (x : Reg) : (s.digitBytes x).map BitVec.toNat = s.digitsOf x := by
  simp only [State.digitBytes, State.digitsOf, List.map_cons, List.map_nil, hundreds_toNat, tens_toNat, ones_toNat]

theorem State.blockBytes_toNat (s : State) (x : Reg) : (s.blockBytes x).map BitVec.toNat = s.blockOf x := by
  rw [State.blockBytes, List.map_map]
  rfl

/-- The word that the call after a store fetches (R55): both its bytes are read from the memory the store left. -/
theorem Stores.fetch_next {s t : State} {bs : List Byte} (h : Stores s t bs)
    (hwf : Memory.wf s.config.font s.memory = true) (hpc : t.pc = s.pc + 2) (hrange : (s.pc + 2).toNat + 1 < 4096) :
    ∃ w, t.fetch = .ok w ∧ w.toNat = s.overwritten (bs.map BitVec.toNat) (s.pc + 2).toNat * 256 +
      s.overwritten (bs.map BitVec.toNat) ((s.pc + 2).toNat + 1) := by
  refine ⟨wordOfBytes (t.byteAt (s.pc + 2).toNat) (t.byteAt ((s.pc + 2).toNat + 1)), ?_, ?_⟩
  · rw [State.fetch_eq, hpc, if_pos hrange]
  · rw [wordOfBytes_toNat, h.byteAt_toNat hwf, h.byteAt_toNat hwf]

/-- Settles O32: the fetch reads the memory that the store left. -/
theorem storeSeenByNextFetch : Obligations.StoreSeenByNextFetch := by
  intro x s hwf hrange
  refine ⟨fun h => ?digits, fun h => ?block⟩
  case digits =>
    obtain ⟨t, hexec, hstores, hframe⟩ := exec_ldBVx_completes x h
    obtain ⟨w, hfetch, hw⟩ := hstores.fetch_next hwf (by rw [hframe]) hrange
    rw [State.digitBytes_toNat] at hw
    exact ⟨t, w, hexec, hfetch, hw⟩
  case block =>
    obtain ⟨t, hexec, hstores, hframe⟩ := exec_ldMemVx_completes x h
    obtain ⟨w, hfetch, hw⟩ := hstores.fetch_next hwf (by rw [hframe]) hrange
    rw [State.blockBytes_toNat] at hw
    exact ⟨t, w, hexec, hfetch, hw⟩

end Sys2Proof.Machine

/-! DXYN once (44_display.md R118 to R120), the skips on a key (45_keypad_timers.md R122 to R124) and the wait for a key (R128). -/

namespace Sys2Proof.Machine

/-! ### DXYN -/

/-- Settles O34: a draw in range is `Draws` with the picture of the state, and each clause is one of its parts. -/
theorem drawSprite : Obligations.DrawSprite := by
  intro x y n s hrows
  obtain ⟨t, hexec, hdraws⟩ := exec_drw_draws x hrows
  refine ⟨t, hexec, hdraws.drawStart_pixel, hdraws.vf_of_collides, hdraws.vf_of_unlit, fun r hr => hdraws.drawStart_getV hr, ?_⟩
  obtain ⟨hframe, -⟩ := hdraws
  exact hframe

theorem State.drawRows_out_of_range {rows y a : Nat} (x0 : Nat) (s : State) (hvisible : 0 < visibleRows y rows)
    (hover : 4096 < a + visibleRows y rows) :
    s.drawRows x0 y a rows = .error { kind := .memRange, addr := if a < 4096 then 4096 else a } := by
  have hspec := State.drawRows_spec x0 rows s y a
  rwa [if_neg (by omega), max_limit_eq_ite] at hspec

/-- Settles O35: the run of rows raises, and the raise is fault entry from the state before the call. -/
theorem drawOutOfRangeFaults : Obligations.DrawOutOfRangeFaults := by
  intro x y n s hvisible hover
  have hraise := State.drawRows_out_of_range (originX (s.getV x)) (s.enter.setFlag false) hvisible hover
  rw [TakesFault, exec_drw, State.ea, originY, Nat.add_zero, hraise]
  rfl

/-! ### The skips on a key -/

theorem exec_skp (x : Reg) (s : State) :
    exec (.skp x) s = conclude (.skp x) s ((keyOf (s.getV x)).map fun k => s.enter.skipIf (s.pressed k)) := rfl

theorem exec_sknp (x : Reg) (s : State) :
    exec (.sknp x) s = conclude (.sknp x) s ((keyOf (s.getV x)).map fun k => s.enter.skipIf (!s.pressed k)) := rfl

theorem keyOf_of_eq {b : Byte} {k : Key} (h : b.toNat = k.val) : keyOf b = .ok k := by
  have hlt : b.toNat < 16 := h ▸ k.isLt
  rw [keyOf, dif_pos hlt]
  exact congrArg Except.ok (Fin.ext h)

theorem keyOf_of_ge {b : Byte} (h : 16 ≤ b.toNat) : keyOf b = .error { kind := .keyRange, addr := b.toNat } :=
  dif_neg (Nat.not_lt.mpr h)

/-- Settles O37: VX names the key, and the skip is the one on its latch. -/
theorem skipsOnKey : Obligations.SkipsOnKey := by
  intro x k s hk
  rw [exec_skp, exec_sknp, keyOf_of_eq hk]
  simp only [Except.map, conclude_ok, State.enter_skipIf, Bool.not_eq_true', ← Bool.not_eq_true, ite_not]
  exact ⟨rfl, rfl⟩

/-- Settles O38: VX names no key, and the raise is fault entry. -/
theorem keyOutOfRangeFaults : Obligations.KeyOutOfRangeFaults := by
  intro x s hx
  rw [TakesFault, TakesFault, exec_skp, exec_sknp, keyOf_of_ge hx]
  exact ⟨rfl, rfl⟩

/-! ### The wait for a key -/

/-- A wait takes back the advance of PC (R72). -/
theorem State.enter_rewind (s : State) : s.enter.rewind = { s with call := CallOutput.none } := by
  have hback : s.pc + 2 - 2 = s.pc := BitVec.add_sub_cancel s.pc 2
  rw [State.rewind, State.enter_pc, hback]
  rfl

theorem exec_ldVxK_idle_none {s : State} (x : Reg) (hidle : s.keyWait = .idle) (hnone : s.leastPressed = none) :
    exec (.ldVxK x) s = .next s.enter.rewind := by
  simp only [exec, execLdVxK, hidle, hnone]

theorem exec_ldVxK_idle_some {s : State} {k : Key} (x : Reg) (hidle : s.keyWait = .idle) (hsome : s.leastPressed = some k) :
    exec (.ldVxK x) s = .next (s.enter.rewind.setKeyWait (.keyCaptured k)) := by
  simp only [exec, execLdVxK, hidle, hsome]

theorem exec_ldVxK_held {s : State} {k : Key} (x : Reg) (hcaptured : s.keyWait = .keyCaptured k) (hheld : s.pressed k = true) :
    exec (.ldVxK x) s = .next s.enter.rewind := by
  simp only [exec, execLdVxK, hcaptured, hheld, if_true]

theorem exec_ldVxK_released {s : State} {k : Key} (x : Reg) (hcaptured : s.keyWait = .keyCaptured k)
    (hreleased : s.pressed k = false) :
    exec (.ldVxK x) s = .next ((s.enter.setV x (keyByte k)).setKeyWait .idle) := by
  simp only [exec, execLdVxK, hcaptured, hreleased, Bool.false_eq_true, if_false]

theorem State.leastPressed_eq_some {s : State} {k : Key} (hk : s.pressed k = true) (hleast : ∀ j, j < k → s.pressed j = false) :
    s.leastPressed = some k := by
  cases hfound : s.leastPressed with
  | none =>
    have hno := State.leastPressed_none.mp hfound k
    rw [hk] at hno
    cases hno
  | some j =>
    obtain ⟨hj, hlower⟩ := State.leastPressed_some hfound
    rcases lt_trichotomy j k with hlt | heq | hgt
    · rw [hleast j hlt] at hj
      cases hj
    · rw [heq]
    · rw [hlower k hgt] at hk
      cases hk

theorem keyByte_toNat (k : Key) : (keyByte k).toNat = k.val := by
  have hk := k.isLt
  rw [keyByte, BitVec.toNat_ofNat]
  omega

/-- Settles O40, one transition of R128 after the other; the key captured is the least pressed one. -/
theorem keyWaitTransitions : Obligations.KeyWaitTransitions := by
  intro x k s
  refine ⟨fun hidle hnone => ?idle, fun hidle hk hleast => ?capture, fun hcaptured hheld => ?held,
    fun hcaptured hreleased => ?released⟩
  case idle => rw [exec_ldVxK_idle_none x hidle (State.leastPressed_none.mpr hnone), State.enter_rewind]; rfl
  case capture => rw [exec_ldVxK_idle_some x hidle (State.leastPressed_eq_some hk hleast), State.enter_rewind]; rfl
  case held => rw [exec_ldVxK_held x hcaptured hheld, State.enter_rewind]; rfl
  case released =>
    refine ⟨_, exec_ldVxK_released x hcaptured hreleased, ?_, fun r hr => ?_, rfl⟩
    · rw [State.setKeyWait_getV, State.getV_setV, if_pos rfl, keyByte_toNat]
    · rw [State.setKeyWait_getV, State.getV_setV, if_neg hr.symm, State.enter_getV]

end Sys2Proof.Machine

/-! What an instruction leaves unchanged (10_state.md R20 to R34, 20_memory.md R44, 60_exceptions.md R138, R139). An instruction that
answers a next state either is fault entry with a warranted raise or keeps its frame: `exec_cases` says so once, instruction by
instruction, and every frame statement is a part of it. -/

namespace Sys2Proof.Machine

/-! ### The frame of an instruction -/

/-- A next state of `i` that is not fault entry. A field left out is one that the update writes nowhere, which `rfl` shows. -/
structure KeepsFrame (i : Instr) (s t : State) : Prop where
  registers : ∀ r, r ∉ destRegs i → t.getV r = s.getV r := by exact fun _ _ => rfl
  bytes : ∀ a, a < s.ea 0 ∨ s.ea 0 + storeLength i ≤ a → t.byteAt a = s.byteAt a := by exact fun _ _ => rfl
  canonical : Memory.wf s.config.font s.memory = true → Memory.wf s.config.font t.memory = true := by exact id
  index : writesI i = false → t.i = s.i := by exact fun _ => rfl
  delay : (∀ x, i ≠ .ldDtVx x) → t.dt = s.dt := by exact fun _ => rfl
  sound : (∀ x, i ≠ .ldStVx x) → t.st = s.st := by exact fun _ => rfl
  entries : (∀ nnn, i ≠ .call nnn) → t.stack = s.stack := by exact fun _ => rfl
  depth : (∀ nnn, i ≠ .call nnn) → i ≠ .ret → t.sp = s.sp := by exact fun _ _ => rfl
  pixels : isDisplay i = false → t.display = s.display := by exact fun _ => rfl
  wait : (∀ x, i ≠ .ldVxK x) → t.keyWait = s.keyWait := by exact fun _ => rfl
  drawn : (∀ x nn, i ≠ .rnd x nn) → t.draws = s.draws := by exact fun _ => rfl
  diag : (∀ nnn, i ≠ .call nnn) → i ≠ .ret → t.call.diag = none := by exact fun _ _ => rfl
  others : t = { s with
    memory := t.memory, v := t.v, i := t.i, pc := t.pc, stack := t.stack, sp := t.sp, dt := t.dt, st := t.st,
    display := t.display, keyWait := t.keyWait, call := t.call, draws := t.draws } := by exact rfl

/-- A raise that the spec lists for `i` (R138), with an address or a key out of range. -/
def Raise.Warranted (e : Raise) (i : Instr) : Prop :=
  faultOf i = some e.kind ∧ (e.kind = .memRange → 4096 ≤ e.addr) ∧ (e.kind = .keyRange → 16 ≤ e.addr)

theorem Raise.warranted_memRange {i : Instr} {a : Nat} (hi : faultOf i = some .memRange) (ha : 4096 ≤ a) :
    Raise.Warranted { kind := .memRange, addr := a } i :=
  ⟨hi, fun _ => ha, nofun⟩

theorem Raise.warranted_keyRange {i : Instr} {a : Nat} (hi : faultOf i = some .keyRange) (ha : 16 ≤ a) :
    Raise.Warranted { kind := .keyRange, addr := a } i :=
  ⟨hi, nofun, fun _ => ha⟩

/-! ### What the shared operations raise -/

theorem State.writeBytes_error {s : State} {a : Nat} {bs : List Byte} {e : Raise} (h : s.writeBytes a bs = .error e) :
    ∃ b, 4096 ≤ b ∧ e = { kind := .memRange, addr := b } := by
  cases bs with
  | nil => cases h
  | cons b bs =>
    rw [State.writeBytes_eq] at h
    split at h <;> cases h
    exact ⟨_, Nat.le_max_right _ _, rfl⟩

theorem State.readRegs_error {s : State} {a : Nat} {rs : List Reg} {e : Raise} (h : s.readRegs a rs = .error e) :
    ∃ b, 4096 ≤ b ∧ e = { kind := .memRange, addr := b } := by
  cases rs with
  | nil => cases h
  | cons r rs =>
    rw [State.readRegs_eq] at h
    split at h <;> cases h
    exact ⟨_, Nat.le_max_right _ _, rfl⟩

theorem State.drawRows_cases {s : State} {x0 y a rows : Nat} {r : Attempt State} (h : s.drawRows x0 y a rows = r) :
    (∃ t, r = .ok t ∧ Draws s t (spriteCovers s.byteAt a x0 y rows)) ∨
    ∃ b, 4096 ≤ b ∧ r = .error { kind := .memRange, addr := b } := by
  have hspec := State.drawRows_spec x0 rows s y a
  rw [h] at hspec
  split at hspec
  · exact .inl hspec
  · exact .inr ⟨_, Nat.le_max_right _ _, hspec⟩

theorem keyOf_error {b : Byte} {e : Raise} (h : keyOf b = .error e) : ∃ a, 16 ≤ a ∧ e = { kind := .keyRange, addr := a } := by
  by_cases hb : 16 ≤ b.toNat
  · rw [keyOf_of_ge hb] at h
    cases h
    exact ⟨_, hb, rfl⟩
  · rw [keyOf_of_eq (k := ⟨b.toNat, Nat.not_le.mp hb⟩) rfl] at h
    cases h

/-- An instruction whose attempt is changed by `f`: the changed result, or fault entry. -/
theorem conclude_map_cases {α : Type} {i : Instr} {s t : State} {r : Attempt α} {f : α → State}
    (h : conclude i s (r.map f) = .next t) :
    (∃ a, r = .ok a ∧ t = f a) ∨ (∃ e, r = .error e ∧ t = s.takeFault (some (encode i)) e) := by
  cases r with
  | ok a => cases h; exact .inl ⟨a, rfl, rfl⟩
  | error e => cases h; exact .inr ⟨e, rfl, rfl⟩

/-! ### Registers outside the destinations -/

theorem State.enter_setV_getV {s : State} {x r : Reg} {b : Byte} (hr : r ∉ [x]) : (s.enter.setV x b).getV r = s.getV r := by
  rw [State.getV_setV, if_neg (List.ne_of_not_mem_cons hr).symm, State.enter_getV]

theorem State.enter_resultThenFlag_getV {s : State} {x r : Reg} {b : Byte} {c : Bool} (hr : r ∉ [x, vf]) :
    (s.enter.resultThenFlag x b c).getV r = s.getV r := by
  obtain ⟨hx, hf⟩ : r ≠ x ∧ r ≠ vf := by simpa using hr
  rw [State.getV_resultThenFlag, if_neg hf.symm, if_neg hx.symm, State.enter_getV]

theorem State.enter_flagThenShift_getV {s : State} {x y r : Reg} {c : Bool} {f : Byte → Byte} (hr : r ∉ [x, vf]) :
    (s.enter.flagThenShift x y c f).getV r = s.getV r := by
  obtain ⟨hx, hf⟩ : r ≠ x ∧ r ≠ vf := by simpa using hr
  obtain ⟨-, -, hother⟩ := s.enter.flagThenShift_cases x y c f
  exact hother r hx hf

/-! ### The frame of each kind of result -/

theorem KeepsFrame.of_setPc (i : Instr) (s : State) (w : Word) : KeepsFrame i s (s.enter.setPc w) := {}

theorem KeepsFrame.of_skipIf (i : Instr) (s : State) (c : Bool) : KeepsFrame i s (s.enter.skipIf c) := by
  rw [State.skipIf_eq]
  exact .of_setPc i s _

theorem KeepsFrame.of_writesOnlyV {i : Instr} {s t : State} (h : WritesOnlyV s t)
    (hregs : ∀ r, r ∉ destRegs i → t.getV r = s.getV r) : KeepsFrame i s t := by
  rw [h]
  exact { registers := hregs }

theorem KeepsFrame.of_setI {i : Instr} {s : State} {w : Word} (hi : writesI i = true) : KeepsFrame i s (s.enter.setI w) :=
  { index := fun hno => by rw [hi] at hno; cases hno }

theorem KeepsFrame.of_writeBytes {i : Instr} {s t : State} {bs : List Byte} (h : s.enter.writeBytes s.i.toNat bs = .ok t)
    (hlength : bs.length = storeLength i) : KeepsFrame i s t := by
  obtain ⟨hframe, hout, hin⟩ := State.writeBytes_ok bs s.enter t s.i.toNat h
  have hcanonical := fun hwf => (hin hwf).1
  rw [hlength] at hout
  rw [hframe] at hout hcanonical ⊢
  exact { bytes := hout, canonical := hcanonical }

theorem KeepsFrame.setI {i : Instr} {s t : State} {w : Word} (h : KeepsFrame i s t) (hi : writesI i = true) :
    KeepsFrame i s (t.setI w) :=
  { h with
    index := fun hno => by rw [hi] at hno; cases hno
    others := congrArg (State.setI · w) h.others }

theorem KeepsFrame.of_readRegs {x : Reg} {s t : State} (h : s.enter.readRegs s.i.toNat (blockTo x) = .ok t) :
    KeepsFrame (.ldVxMem x) s t := by
  obtain ⟨hframe, hout, -⟩ := State.readRegs_ok (blockTo x) s.enter t s.i.toNat h
  rw [hframe] at hout ⊢
  exact { registers := hout }

theorem KeepsFrame.of_draws {x y : Reg} {n : BitVec 4} {s t : State} {cov : Fin 64 → Fin 32 → Bool}
    (h : Draws s.drawStart t cov) : KeepsFrame (.drw x y n) s t := by
  have hregs : ∀ r, r ∉ destRegs (.drw x y n) → t.getV r = s.getV r :=
    fun r hr => h.drawStart_getV (List.ne_of_not_mem_cons hr)
  obtain ⟨hframe, -⟩ := h
  rw [hframe] at hregs ⊢
  exact { registers := hregs, pixels := nofun }

/-! ### Everything an instruction can do -/

theorem execRet_keepsFrame {s t : State} (h : exec .ret s = .next t) : KeepsFrame .ret s t := by
  by_cases hsp : s.sp.val = 0
  · rw [exec_ret_of_empty hsp] at h
    cases h
    exact { diag := fun _ hret => absurd rfl hret }
  · rw [exec_ret_of_entry hsp] at h
    cases h
    exact { depth := fun _ hret => absurd rfl hret }

theorem execCall_keepsFrame {nnn : BitVec 12} {s t : State} (h : exec (.call nnn) s = .next t) : KeepsFrame (.call nnn) s t := by
  by_cases hsp : s.sp.val < 16
  · rw [exec_call_of_room nnn hsp] at h
    cases h
    exact { entries := fun hcall => absurd rfl (hcall nnn), depth := fun hcall => absurd rfl (hcall nnn) }
  · rw [exec_call_of_full nnn (by omega)] at h
    cases h
    exact { diag := fun hcall => absurd rfl (hcall nnn) }

theorem execLdVxK_keepsFrame {x : Reg} {s t : State} (h : exec (.ldVxK x) s = .next t) : KeepsFrame (.ldVxK x) s t := by
  cases hwait : s.keyWait with
  | idle =>
    cases hleast : s.leastPressed with
    | none =>
      rw [exec_ldVxK_idle_none x hwait hleast] at h
      cases h
      exact {}
    | some k =>
      rw [exec_ldVxK_idle_some x hwait hleast] at h
      cases h
      exact { wait := fun hkey => absurd rfl (hkey x) }
  | keyCaptured k =>
    cases hpressed : s.pressed k with
    | true =>
      rw [exec_ldVxK_held x hwait hpressed] at h
      cases h
      exact {}
    | false =>
      rw [exec_ldVxK_released x hwait hpressed] at h
      cases h
      exact { registers := fun r hr => State.enter_setV_getV hr, wait := fun hkey => absurd rfl (hkey x) }

/-- Everything an instruction that answers a next state can do: fault entry with a raise of its own, or its frame. -/
theorem exec_cases {i : Instr} {s t : State} (h : exec i s = .next t) :
    (∃ e, Raise.Warranted e i ∧ t = s.takeFault (some (encode i)) e) ∨ KeepsFrame i s t := by
  cases i
  case cls => cases h; exact .inr { pixels := nofun }
  case ret => exact .inr (execRet_keepsFrame h)
  case call => exact .inr (execCall_keepsFrame h)
  case jp | jpV0 => cases h; exact .inr (.of_setPc _ s _)
  case seVxNn | sneVxNn | seVxVy | sneVxVy => cases h; exact .inr (.of_skipIf _ s _)
  case ldVxNn | addVxNn | ldVxVy | ldVxDt =>
    cases h
    exact .inr (.of_writesOnlyV rfl fun r hr => State.enter_setV_getV hr)
  case orVxVy | andVxVy | xorVxVy | addVxVy | sub | subn =>
    cases h
    exact .inr (.of_writesOnlyV rfl fun r hr => State.enter_resultThenFlag_getV hr)
  case shr =>
    rw [exec_shr] at h
    cases h
    exact .inr (.of_writesOnlyV rfl fun r hr => State.enter_flagThenShift_getV hr)
  case shl =>
    rw [exec_shl] at h
    cases h
    exact .inr (.of_writesOnlyV rfl fun r hr => State.enter_flagThenShift_getV hr)
  case rnd x nn =>
    cases h
    exact .inr { registers := fun r hr => State.enter_setV_getV hr, drawn := fun hrnd => absurd rfl (hrnd x nn) }
  case ldINnn | addIVx | ldFVx => cases h; exact .inr (.of_setI rfl)
  case ldDtVx x => cases h; exact .inr { delay := fun hdt => absurd rfl (hdt x) }
  case ldStVx x => cases h; exact .inr { sound := fun hst => absurd rfl (hst x) }
  case ldVxK => exact .inr (execLdVxK_keepsFrame h)
  case skp | sknp =>
    obtain ⟨k, -, rfl⟩ | ⟨e, he, rfl⟩ := conclude_map_cases h
    · exact .inr (.of_skipIf _ s _)
    · obtain ⟨a, ha, rfl⟩ := keyOf_error he
      exact .inl ⟨_, Raise.warranted_keyRange rfl ha, rfl⟩
  case drw =>
    obtain ⟨u, hu, rfl⟩ | ⟨e, he, rfl⟩ := conclude_map_cases h
    · obtain ⟨t, ht, hdraws⟩ | ⟨a, -, ha⟩ := State.drawRows_cases hu
      · cases ht
        exact .inr (.of_draws hdraws.requestRedraw)
      · cases ha
    · obtain ⟨t, ht, -⟩ | ⟨a, ha, hraise⟩ := State.drawRows_cases he
      · cases ht
      · cases hraise
        exact .inl ⟨_, Raise.warranted_memRange rfl ha, rfl⟩
  case ldBVx =>
    obtain hu | ⟨e, he, rfl⟩ := conclude_cases h
    · exact .inr (.of_writeBytes hu rfl)
    · obtain ⟨a, ha, rfl⟩ := State.writeBytes_error he
      exact .inl ⟨_, Raise.warranted_memRange rfl ha, rfl⟩
  case ldMemVx x =>
    rw [exec_ldMemVx] at h
    obtain ⟨u, hu, rfl⟩ | ⟨e, he, rfl⟩ := conclude_map_cases h
    · exact .inr (KeepsFrame.setI (.of_writeBytes hu (s.blockBytes_length x)) rfl)
    · obtain ⟨a, ha, rfl⟩ := State.writeBytes_error he
      exact .inl ⟨_, Raise.warranted_memRange rfl ha, rfl⟩
  case ldVxMem =>
    obtain ⟨u, hu, rfl⟩ | ⟨e, he, rfl⟩ := conclude_map_cases h
    · exact .inr ((KeepsFrame.of_readRegs hu).setI rfl)
    · obtain ⟨a, ha, rfl⟩ := State.readRegs_error he
      exact .inl ⟨_, Raise.warranted_memRange rfl ha, rfl⟩

/-! ### The obligations -/

/-- Settles O41: fault entry writes no register, and the frame names the ones that may change. -/
theorem registerFrame : Obligations.RegisterFrame := by
  intro i s t r h hr
  obtain ⟨e, -, rfl⟩ | hkeeps := exec_cases h
  · rfl
  · exact hkeeps.registers r hr

/-- Settles O42: fault entry stores nothing, and the frame says where the bytes stored lie. -/
theorem memoryFrame : Obligations.MemoryFrame := by
  intro i s t a h ha
  obtain ⟨e, -, rfl⟩ | hkeeps := exec_cases h
  · rfl
  · exact hkeeps.bytes a ha

/-- Settles O43, field by field of the frame. -/
theorem specialStateFrame : Obligations.SpecialStateFrame := by
  intro i s t h
  obtain ⟨e, -, rfl⟩ | hkeeps := exec_cases h
  · exact ⟨fun _ => rfl, fun _ => rfl, fun _ => rfl, fun _ => rfl, fun _ _ => rfl, fun _ => rfl, fun _ => rfl, fun _ => rfl⟩
  · exact ⟨hkeeps.index, hkeeps.delay, hkeeps.sound, hkeeps.entries, hkeeps.depth, hkeeps.pixels, hkeeps.wait, hkeeps.drawn⟩

/-- Settles O44: the frame names the fields an instruction may write, and these are not among them. -/
theorem hostStateFrame : Obligations.HostStateFrame := by
  intro i s t h
  obtain ⟨e, -, rfl⟩ | hkeeps := exec_cases h
  · exact ⟨rfl, rfl, rfl, rfl, rfl, rfl, rfl, rfl, rfl⟩
  · rw [hkeeps.others]
    exact ⟨rfl, rfl, rfl, rfl, rfl, rfl, rfl, rfl, rfl⟩

/-- Settles O45: the frame keeps fault and run_state, and what is not the frame is fault entry with a warranted raise. -/
theorem onlyListedInstructionsFault : Obligations.OnlyListedInstructionsFault := by
  intro i s t h
  obtain ⟨e, ⟨hkind, hmem, hkey⟩, rfl⟩ | hkeeps := exec_cases h
  · exact .inr ⟨e.kind, e.addr, hkind, h, hmem, hkey⟩
  · rw [hkeeps.others]
    exact .inl ⟨rfl, rfl⟩

end Sys2Proof.Machine

/-! The executor call (40_execution_cycle.md R70 to R77): what it answers for a word that decodes, the fetch fault, its diagnostic,
and what it keeps of the state whatever word it runs. -/

namespace Sys2Proof.Machine

/-! ### The call, by what the fetch gives -/

theorem State.fetch_out_of_range {s : State} (h : 4096 ≤ s.pc.toNat + 1) :
    s.fetch = .error { kind := .memRange, addr := if s.pc.toNat = 4095 then 4096 else s.pc.toNat } := by
  have hfirst : max s.pc.toNat 4096 = if s.pc.toNat = 4095 then 4096 else s.pc.toNat := by
    split <;> omega
  rw [State.fetch_eq, if_neg (Nat.not_lt.mpr h), hfirst]

theorem executorCall_of_fetch_error {s : State} {r : Raise} (hf : s.fetch = .error r) :
    executorCall s = .next (s.takeFault none r) := by
  simp only [executorCall, hf]

theorem executorCall_of_decode_ok {s : State} {w : Word} {i : Instr} (hf : s.fetch = .ok w) (hd : decode w = .ok i) :
    executorCall s = exec i s := by
  simp only [executorCall, hf, execWord, hd]

/-- Settles O8: the fetch raises, and the raise is taken with no word. -/
theorem fetchOutOfRangeHalts : Obligations.FetchOutOfRangeHalts := by
  intro s h
  rw [executorCall_of_fetch_error (State.fetch_out_of_range h)]
  rfl

/-! ### The diagnostic -/

theorem State.expectedDiag_of_other {i : Instr} {w : Word} (s : State) (hd : decode w = .ok i) (hcall : ∀ nnn, i ≠ .call nnn)
    (hret : i ≠ .ret) : s.expectedDiag w = none := by
  cases i
  case ret => exact absurd rfl hret
  case call nnn => exact absurd rfl (hcall nnn)
  all_goals simp only [State.expectedDiag, hd]

theorem exec_diag_of_other {i : Instr} {s t : State} (h : exec i s = .next t) (hcall : ∀ nnn, i ≠ .call nnn)
    (hret : i ≠ .ret) : t.call.diag = none := by
  obtain ⟨e, -, rfl⟩ | hkeeps := exec_cases h
  · rfl
  · exact hkeeps.diag hcall hret

theorem exec_ret_diag {s t : State} {w : Word} (hd : decode w = .ok .ret) (h : exec .ret s = .next t) :
    t.call.diag = s.expectedDiag w := by
  have hw : encode .ret = w := encodeDecodeRoundTrip w .ret hd
  simp only [State.expectedDiag, hd]
  by_cases hsp : s.sp.val = 0
  · rw [exec_ret_of_empty hsp, hw] at h
    cases h
    rw [if_pos hsp]
    rfl
  · rw [exec_ret_of_entry hsp] at h
    cases h
    rw [if_neg hsp]
    rfl

theorem exec_call_diag {nnn : BitVec 12} {s t : State} {w : Word} (hd : decode w = .ok (.call nnn))
    (h : exec (.call nnn) s = .next t) : t.call.diag = s.expectedDiag w := by
  have hw : encode (.call nnn) = w := encodeDecodeRoundTrip w (.call nnn) hd
  simp only [State.expectedDiag, hd]
  by_cases hsp : s.sp.val = 16
  · rw [exec_call_of_full nnn hsp, hw] at h
    cases h
    rw [if_pos hsp]
    rfl
  · rw [exec_call_of_room nnn (by omega)] at h
    cases h
    rw [if_neg hsp]
    rfl

theorem exec_diag {i : Instr} {s t : State} {w : Word} (hd : decode w = .ok i) (h : exec i s = .next t) :
    t.call.diag = s.expectedDiag w := by
  by_cases hret : i = .ret
  · subst hret
    exact exec_ret_diag hd h
  · by_cases hcall : ∃ nnn, i = .call nnn
    · obtain ⟨nnn, rfl⟩ := hcall
      exact exec_call_diag hd h
    · have hother : ∀ nnn, i ≠ .call nnn := not_exists.mp hcall
      rw [exec_diag_of_other h hother hret, s.expectedDiag_of_other hd hother hret]

/-- Settles O10: 00EE and 2NNN by the case of SP, the other instructions and fault entry report nothing. -/
theorem diagnosticOutput : Obligations.DiagnosticOutput := by
  intro s t w hf hcall
  obtain ⟨r, hr, -⟩ | ⟨w', i, hw, hd, hexec⟩ | ⟨w', e, hw, hd, rfl⟩ := executorCall_cases hcall
  · rw [hf] at hr
    cases hr
  · rw [hf] at hw
    cases hw
    exact exec_diag hd hexec
  · rw [hf] at hw
    cases hw
    simp only [State.expectedDiag, hd]
    rfl

/-! ### What a call keeps -/

/-- What every call keeps: the fields of the host and the sequencer, the canonical form of memory, and fault and run_state unless
it ends in fault entry. -/
structure CallKeeps (s t : State) : Prop where
  host : t = { s with
    memory := t.memory, v := t.v, i := t.i, pc := t.pc, stack := t.stack, sp := t.sp, dt := t.dt, st := t.st,
    display := t.display, keyWait := t.keyWait, runState := t.runState, fault := t.fault, call := t.call, draws := t.draws }
  canonical : Memory.wf s.config.font s.memory = true → Memory.wf s.config.font t.memory = true
  status : (t.fault = s.fault ∧ t.runState = s.runState) ∨ (t.fault ≠ none ∧ t.runState = .halted)

theorem CallKeeps.of_takeFault (s : State) (w : Option Word) (r : Raise) : CallKeeps s (s.takeFault w r) :=
  ⟨rfl, id, .inr ⟨nofun, rfl⟩⟩

theorem CallKeeps.of_keepsFrame {i : Instr} {s t : State} (h : KeepsFrame i s t) : CallKeeps s t := by
  have hcanonical := h.canonical
  rw [h.others] at hcanonical ⊢
  exact ⟨rfl, hcanonical, .inl ⟨rfl, rfl⟩⟩

theorem exec_callKeeps {i : Instr} {s t : State} (h : exec i s = .next t) : CallKeeps s t := by
  obtain ⟨e, -, rfl⟩ | hkeeps := exec_cases h
  · exact .of_takeFault s _ e
  · exact .of_keepsFrame hkeeps

theorem executorCall_callKeeps {s t : State} (h : executorCall s = .next t) : CallKeeps s t := by
  obtain ⟨r, -, rfl⟩ | ⟨w, i, -, -, hexec⟩ | ⟨w, e, -, -, rfl⟩ := executorCall_cases h
  · exact .of_takeFault s none r
  · exact exec_callKeeps hexec
  · exact ⟨rfl, id, .inl ⟨rfl, rfl⟩⟩

theorem CallKeeps.config {s t : State} (h : CallKeeps s t) : t.config = s.config := by rw [h.host]
theorem CallKeeps.image {s t : State} (h : CallKeeps s t) : t.image = s.image := by rw [h.host]
theorem CallKeeps.batch {s t : State} (h : CallKeeps s t) : t.batch = s.batch := by rw [h.host]
theorem CallKeeps.events {s t : State} (h : CallKeeps s t) : t.events = s.events := by rw [h.host]
theorem CallKeeps.ipf {s t : State} (h : CallKeeps s t) : t.ipf = s.ipf := by rw [h.host]; rfl

/-- Only fault entry stops a Running core. -/
theorem CallKeeps.runState_of_fault_none {s t : State} (h : CallKeeps s t) (hfault : t.fault = none) :
    t.runState = s.runState := by
  obtain ⟨-, hrun⟩ | ⟨hfault', -⟩ := h.status
  · exact hrun
  · exact absurd hfault hfault'

/-! ### Every call answers a next state -/

theorem exists_conclude_eq_next (i : Instr) (s : State) (r : Attempt State) : ∃ t, conclude i s r = .next t := by
  cases r with
  | ok t => exact ⟨t, rfl⟩
  | error e => exact ⟨_, rfl⟩

theorem exists_exec_eq_next (i : Instr) (s : State) : ∃ t, exec i s = .next t := by
  cases i
  case ret =>
    by_cases hsp : s.sp.val = 0
    · exact ⟨_, exec_ret_of_empty hsp⟩
    · exact ⟨_, exec_ret_of_entry hsp⟩
  case call nnn =>
    by_cases hsp : s.sp.val < 16
    · exact ⟨_, exec_call_of_room nnn hsp⟩
    · exact ⟨_, exec_call_of_full nnn (by omega)⟩
  case ldVxK x =>
    cases hwait : s.keyWait with
    | idle =>
      cases hleast : s.leastPressed with
      | none => exact ⟨_, exec_ldVxK_idle_none x hwait hleast⟩
      | some k => exact ⟨_, exec_ldVxK_idle_some x hwait hleast⟩
    | keyCaptured k =>
      cases hpressed : s.pressed k with
      | true => exact ⟨_, exec_ldVxK_held x hwait hpressed⟩
      | false => exact ⟨_, exec_ldVxK_released x hwait hpressed⟩
  case drw | skp | sknp | ldBVx | ldMemVx | ldVxMem => exact exists_conclude_eq_next _ s _
  all_goals exact ⟨_, rfl⟩

theorem exists_executorCall_eq_next (s : State) : ∃ t, executorCall s = .next t := by
  cases hf : s.fetch with
  | error r => exact ⟨_, executorCall_of_fetch_error hf⟩
  | ok w =>
    cases hd : decode w with
    | ok i => rw [executorCall_of_decode_ok hf hd]; exact exists_exec_eq_next i s
    | error e => exact ⟨_, executorCall_of_decode_error hf hd⟩

end Sys2Proof.Machine

/-! The frame sequencer around the call (40_execution_cycle.md R78 to R84, 60_exceptions.md R144): one step as an equation, the end of
a batch, the invariant of a run, and the frame procedure that the steps of a frame make. -/

namespace Sys2Proof.Machine

/-! ### One step -/

theorem State.callDue_iff (s : State) : s.callDue = true ↔ s.runState = .running ∧ s.batch < s.ipf := by
  rw [State.callDue, Bool.and_eq_true, decide_eq_true_eq, decide_eq_true_eq]

theorem step_of_callDue {s : State} (h : s.openFrame.callDue = true) :
    step s = andThen (executorCall s.openFrame) State.afterCall := by
  simp only [step, State.turn, h, if_true]

theorem step_of_not_callDue {s : State} (h : s.openFrame.callDue = false) : step s = .next s.openFrame.closeFrame := by
  simp only [step, State.turn, h, Bool.false_eq_true, if_false]

theorem State.callDue_of_not_running {s : State} (h : s.runState ≠ .running) : s.callDue = false := by
  rw [← Bool.not_eq_true, State.callDue_iff]
  exact fun hdue => h hdue.1

/-- Settles O6: the fetch gives the word of the two bytes, and the call is the instruction it decodes to. -/
theorem stepRunsDecodedInstruction : Obligations.StepRunsDecodedInstruction := by
  refine ⟨fun s i hdue hrange hd => ?_, fun s h => State.openFrame_inside h, fun s h hi => State.openFrame_idle h hi⟩
  have hf := s.openFrame.fetch_eq
  rw [if_pos hrange] at hf
  rw [step_of_callDue hdue, executorCall_of_decode_ok hf hd]

/-! ### The end of a frame -/

theorem State.ticks_iff (s : State) : s.ticks = true ↔ s.fault = none ∧ s.runState = .running := by
  rw [State.ticks, Bool.and_eq_true, decide_eq_true_eq, decide_eq_true_eq]

theorem State.ticks_of_not_running_or_fault {s : State} (h : s.runState ≠ .running ∨ s.fault ≠ none) : s.ticks = false := by
  rw [← Bool.not_eq_true, State.ticks_iff]
  rintro ⟨hfault, hrun⟩
  exact h.elim (fun hno => hno hrun) fun hno => hno hfault

theorem State.closeFrame_timers_of_ticks {s : State} (hrun : s.runState = .running) (hfault : s.fault = none) :
    s.closeFrame.dt.toNat = s.dt.toNat - 1 ∧ s.closeFrame.st.toNat = s.st.toNat - 1 := by
  have hticks : s.ticks = true := s.ticks_iff.mpr ⟨hfault, hrun⟩
  simp only [State.closeFrame_eq, hticks, if_true, decToZero_toNat, and_self]

theorem State.closeFrame_timers_of_no_tick {s : State} (h : s.runState ≠ .running ∨ s.fault ≠ none) :
    s.closeFrame.dt = s.dt ∧ s.closeFrame.st = s.st := by
  simp only [State.closeFrame_eq, State.ticks_of_not_running_or_fault h, Bool.false_eq_true, if_false, and_self]

/-- Settles O46: a tick counts both timers down, and a closed frame holds the tick or the timers as they were. -/
theorem timerTick : Obligations.TimerTick := by
  intro s
  exact ⟨decToZero_toNat s.dt, decToZero_toNat s.st, rfl, State.closeFrame_timers_of_ticks,
    State.closeFrame_timers_of_no_tick⟩

/-- A closed frame without a tick: the framebuffer and the tone in the history, no frame open. -/
theorem State.closeFrame_of_not_running {s : State} (h : s.runState ≠ .running) :
    s.closeFrame = { s with events := .tone (decide (s.st.toNat > 0)) :: .framebuffer s.display :: s.events, batch := 0 } := by
  simp only [State.closeFrame_eq, State.ticks_of_not_running_or_fault (.inl h), Bool.false_eq_true, if_false]

/-- Settles O47: no call is due, and the frame closes without a tick. -/
theorem idleFrame : Obligations.IdleFrame := by
  intro s h
  rw [step_of_not_callDue (State.callDue_of_not_running h), State.closeFrame_of_not_running h]

/-- A closed frame, with its timers named: the tone is sampled after the tick (R82). -/
theorem State.closeFrame_fields (s : State) :
    s.closeFrame = { s with
      dt := s.closeFrame.dt, st := s.closeFrame.st, batch := 0,
      events := .tone (decide (s.closeFrame.st.toNat > 0)) :: .framebuffer s.display :: s.events } := by
  rw [State.closeFrame_eq]

/-! ### The end of a batch -/

theorem State.afterCall_of_ends {s : State} (h : s.fault ≠ none ∨ s.call.redraw = true ∨ s.ipf ≤ s.batch + 1) :
    s.afterCall = s.countCall.closeFrame := by
  have hends : (s.fault.isSome || s.call.redraw || decide (s.ipf ≤ s.batch + 1)) = true := by
    rw [Bool.or_eq_true, Bool.or_eq_true, decide_eq_true_eq, Option.isSome_iff_ne_none, or_assoc]
    exact h
  rw [State.afterCall_eq, if_pos hends]

/-- What follows a call: the frame closes or goes on. -/
theorem State.afterCall_cases (s : State) :
    (s.afterCall = s.countCall.closeFrame) ∨
    (s.fault = none ∧ s.call.redraw = false ∧ s.batch + 1 < s.ipf ∧ s.afterCall = s.countCall) := by
  by_cases h : s.fault ≠ none ∨ s.call.redraw = true ∨ s.ipf ≤ s.batch + 1
  · exact .inl (State.afterCall_of_ends h)
  · simp only [not_or, not_not, Bool.not_eq_true, not_le] at h
    obtain ⟨hfault, hredraw, hlimit⟩ := h
    exact .inr ⟨hfault, hredraw, hlimit, State.afterCall_of_not_ends hfault hredraw hlimit⟩

/-- Settles O48: a call that ends the batch is counted and the frame closed, any other is counted. -/
theorem batchEnd : Obligations.BatchEnd := by
  intro t
  refine ⟨fun hends => ?ends, fun hfault hredraw hlimit => ?goesOn⟩
  case ends =>
    rw [State.afterCall_of_ends hends, State.countCall_eq]
    exact ⟨State.closeFrame_fields _, fun hrun hfault => State.closeFrame_timers_of_ticks hrun hfault,
      fun hno => State.closeFrame_timers_of_no_tick hno⟩
  case goesOn => rw [State.afterCall_of_not_ends hfault hredraw hlimit, State.countCall_eq]

/-! ### What the sequencer keeps around a call -/

/-- Closing a frame writes the timers, the batch count and the history. -/
theorem State.closeFrame_frame (s : State) :
    s.closeFrame = { s with
      dt := s.closeFrame.dt, st := s.closeFrame.st, batch := s.closeFrame.batch, events := s.closeFrame.events } := by
  rw [State.closeFrame_eq]

/-- So does what follows a call. -/
theorem State.afterCall_frame (s : State) :
    s.afterCall = { s with
      dt := s.afterCall.dt, st := s.afterCall.st, batch := s.afterCall.batch, events := s.afterCall.events } := by
  obtain h | ⟨-, -, -, h⟩ := s.afterCall_cases <;> rw [h, State.countCall_eq]
  exact State.closeFrame_frame _

theorem State.closeFrame_events_grow (s : State) : ∃ new, s.closeFrame.events = new ++ s.events := by
  rw [State.closeFrame_fields]
  exact ⟨[_, _], rfl⟩

theorem State.countCall_events_grow (s : State) : ∃ new, s.countCall.events = new ++ s.events := by
  rw [State.countCall_eq]
  exact ⟨_, rfl⟩

theorem State.afterCall_events_grow (s : State) : ∃ new, s.afterCall.events = new ++ s.events := by
  obtain ⟨counted, hcounted⟩ := s.countCall_events_grow
  obtain h | ⟨-, -, -, h⟩ := s.afterCall_cases <;> rw [h]
  · obtain ⟨closed, hclosed⟩ := s.countCall.closeFrame_events_grow
    exact ⟨closed ++ counted, by rw [hclosed, hcounted, List.append_assoc]⟩
  · exact ⟨counted, hcounted⟩

/-- Settles O50: the frame is open, so the step is a call or the frame's end, and neither writes a field of the host. -/
theorem hostActsOnlyBetweenFrames : Obligations.HostActsOnlyBetweenFrames := by
  intro s t hbatch hstep
  obtain ⟨-, u, hcall, rfl⟩ | ⟨-, rfl⟩ := step_cases hstep
  · rw [State.openFrame_inside hbatch] at hcall
    rw [State.afterCall_frame, (executorCall_callKeeps hcall).host]
    exact ⟨rfl, rfl, rfl, rfl, rfl, rfl, rfl⟩
  · rw [State.openFrame_inside hbatch, State.closeFrame_frame]
    exact ⟨rfl, rfl, rfl, rfl, rfl, rfl, rfl⟩

/-! ### The host's turn -/

/-- A property that the listed actions keep, and that reads neither the inputs nor the keypad, holds of the opened frame. -/
theorem State.openFrame_induction {P : State → Prop} {s : State} (h : P s)
    (hinputs : ∀ inputs, P { s with inputs := inputs })
    (haction : ∀ as ∈ s.inputs.head?, ∀ a ∈ as, ∀ u, P u → P (u.applyAction a))
    (hkeypad : ∀ u, P u → P u.readKeypad) : P s.openFrame := by
  by_cases hbatch : s.batch = 0
  · cases hi : s.inputs with
    | nil =>
      rw [State.openFrame_idle hbatch hi]
      exact hkeypad s h
    | cons now later =>
      have hnow : now ∈ s.inputs.head? := by rw [hi]; rfl
      rw [State.openFrame_actions hbatch hi]
      exact hkeypad _ (List.foldlRecOn now State.applyAction (hinputs later) fun u hu a ha => haction now hnow a ha u hu)
  · rw [State.openFrame_inside hbatch]
    exact h

theorem State.applyAction_config (s : State) (a : HostAction) : (s.applyAction a).config = s.config := by
  cases a
  case load image => rw [State.applyAction]; split <;> rfl
  all_goals rfl

theorem State.applyAction_events_grow (s : State) (a : HostAction) : ∃ new, (s.applyAction a).events = new ++ s.events := by
  cases a
  case load image =>
    rw [State.applyAction]
    split
    · exact ⟨[], rfl⟩
    · exact ⟨[_], rfl⟩
  all_goals exact ⟨[], rfl⟩

/-- The parameters kept and the history grown from those of `s`. -/
def Continues (s t : State) : Prop := t.config = s.config ∧ ∃ new, t.events = new ++ s.events

theorem Continues.trans {s t u : State} (h1 : Continues s t) (h2 : Continues t u) : Continues s u := by
  obtain ⟨hconfig1, new1, hnew1⟩ := h1
  obtain ⟨hconfig2, new2, hnew2⟩ := h2
  exact ⟨hconfig2.trans hconfig1, new2 ++ new1, by rw [hnew2, hnew1, List.append_assoc]⟩

theorem State.openFrame_continues (s : State) : Continues s s.openFrame :=
  State.openFrame_induction (P := Continues s) ⟨rfl, [], rfl⟩ (fun _ => ⟨rfl, [], rfl⟩)
    (fun _ _ a _ u hu => hu.trans ⟨u.applyAction_config a, u.applyAction_events_grow a⟩) fun _ hu => hu

theorem State.closeFrame_continues (s : State) : Continues s s.closeFrame :=
  ⟨by rw [State.closeFrame_frame], s.closeFrame_events_grow⟩

theorem State.afterCall_continues (s : State) : Continues s s.afterCall :=
  ⟨by rw [State.afterCall_frame], s.afterCall_events_grow⟩

theorem CallKeeps.continues {s t : State} (h : CallKeeps s t) : Continues s t := ⟨h.config, [], h.events⟩

/-- Settles O51: the opened frame either has a call to make, which always answers, or closes. -/
theorem everyStateSteps : Obligations.EveryStateSteps := by
  intro s
  cases hdue : s.openFrame.callDue with
  | true =>
    obtain ⟨u, hu⟩ := exists_executorCall_eq_next s.openFrame
    refine ⟨u.afterCall, by rw [step_of_callDue hdue, hu]; rfl, ?_⟩
    exact s.openFrame_continues.trans ((executorCall_callKeeps hu).continues.trans u.afterCall_continues)
  | false => exact ⟨_, step_of_not_callDue hdue, s.openFrame_continues.trans s.openFrame.closeFrame_continues⟩

/-! ### The invariant of a run -/

/-- The invariant of a state between two frames. -/
def State.InvBetween (s : State) : Prop := s.Inv ∧ s.batch = 0

theorem State.InvBetween.of_fields {s : State} (hwf : Memory.wf s.config.font s.memory = true)
    (hhalted : s.fault ≠ none → s.runState = .halted) (hfits : imageFits s.image = true) (hbatch : s.batch = 0) :
    s.InvBetween :=
  ⟨⟨hwf, hhalted, fun hinside => absurd hbatch hinside, hfits⟩, hbatch⟩

theorem State.init_invBetween (s : State) {image : List Byte} (hfits : imageFits image = true) : (s.init image).InvBetween := by
  have hlength : image.length ≤ 3584 := of_decide_eq_true hfits
  exact .of_fields (Memory.wf_ofImage _ (by omega)) (fun hfault => absurd rfl hfault) hfits rfl

theorem State.applyAction_invBetween {s : State} (a : HostAction) (h : s.InvBetween) : (s.applyAction a).InvBetween := by
  have hkeep := h
  obtain ⟨⟨hwf, hhalted, -, hfits⟩, hbatch⟩ := h
  cases a
  case load image =>
    rw [State.applyAction]
    split
    · exact s.init_invBetween ‹_›
    · exact hkeep
  case resetMachine => exact s.init_invBetween hfits
  case quit => exact .of_fields hwf (fun _ => rfl) hfits hbatch
  case pauseToggle =>
    have htoggled : s.fault ≠ none → s.runState.toggled = .halted := fun hfault => by rw [hhalted hfault]; rfl
    exact .of_fields hwf htoggled hfits hbatch
  case debugToggle => exact .of_fields hwf hhalted hfits hbatch
  all_goals exact hkeep

theorem State.openFrame_inv {s : State} (h : s.Inv) : s.openFrame.Inv := by
  by_cases hbatch : s.batch = 0
  · have hopen : s.openFrame.InvBetween :=
      State.openFrame_induction (P := State.InvBetween) ⟨h, hbatch⟩ (fun _ => ⟨h, hbatch⟩)
        (fun _ _ a _ u hu => State.applyAction_invBetween a hu) fun _ hu => hu
    exact hopen.1
  · rw [State.openFrame_inside hbatch]
    exact h

theorem State.closeFrame_inv {s : State} (hwf : Memory.wf s.config.font s.memory = true)
    (hhalted : s.fault ≠ none → s.runState = .halted) (hfits : imageFits s.image = true) : s.closeFrame.Inv := by
  rw [State.closeFrame_fields]
  exact ⟨hwf, hhalted, fun hinside => absurd rfl hinside, hfits⟩

theorem State.afterCall_inv {s : State} (hwf : Memory.wf s.config.font s.memory = true)
    (hhalted : s.fault ≠ none → s.runState = .halted) (hrunning : s.fault = none → s.runState = .running)
    (hfits : imageFits s.image = true) : s.afterCall.Inv := by
  obtain h | ⟨hfault, -, hlimit, h⟩ := s.afterCall_cases <;> rw [h, State.countCall_eq]
  · exact State.closeFrame_inv hwf hhalted hfits
  · exact ⟨hwf, hhalted, fun _ => ⟨hrunning hfault, hlimit⟩, hfits⟩

/-- A call due in a state of the invariant leaves no fault latched but the one of its own fault entry. -/
theorem CallKeeps.afterCall_inv {s u : State} (hinv : s.Inv) (hdue : s.callDue = true) (h : CallKeeps s u) : u.afterCall.Inv := by
  obtain ⟨hwf, hhalted, -, hfits⟩ := hinv
  obtain ⟨hrun, -⟩ := s.callDue_iff.mp hdue
  have hnofault : s.fault = none := by
    by_contra hfault
    rw [hhalted hfault] at hrun
    cases hrun
  refine State.afterCall_inv (by rw [h.config]; exact h.canonical hwf) (fun hfault => ?_) (fun hfault => ?_)
    (by rw [h.image]; exact hfits)
  · obtain ⟨hsame, -⟩ | ⟨-, hstop⟩ := h.status
    · exact absurd (hsame.trans hnofault) hfault
    · exact hstop
  · rw [h.runState_of_fault_none hfault, hrun]

/-- Settles O52: the host's turn keeps the invariant, and so does a call with what follows it or the end of the frame. -/
theorem stepKeepsInvariant : Obligations.StepKeepsInvariant := by
  intro s t hinv hstep
  have hopen := State.openFrame_inv hinv
  obtain ⟨hdue, u, hcall, rfl⟩ | ⟨-, rfl⟩ := step_cases hstep
  · exact CallKeeps.afterCall_inv hopen hdue (executorCall_callKeeps hcall)
  · obtain ⟨hwf, hhalted, -, hfits⟩ := hopen
    exact State.closeFrame_inv hwf hhalted hfits

/-- Settles O53: reset memory is canonical, and no fault is latched and no frame open. -/
theorem resetMeetsInvariant : Obligations.ResetMeetsInvariant :=
  ⟨State.reset_memory_wf, fun hfault => absurd rfl hfault, fun hinside => absurd rfl hinside, rfl⟩

/-! ### A Halted core -/

/-- The core is Halted as it was in `s`, with all that a run could change of it. -/
def StaysHalted (s t : State) : Prop :=
  t.runState = .halted ∧ t.fault = s.fault ∧ t.memory = s.memory ∧ t.v = s.v ∧ t.i = s.i ∧ t.pc = s.pc ∧
  t.stack = s.stack ∧ t.sp = s.sp ∧ t.dt = s.dt ∧ t.st = s.st ∧ t.display = s.display ∧ t.keyWait = s.keyWait

theorem StaysHalted.applyAction {s u : State} {a : HostAction} (h : StaysHalted s u) (ha : a.replaces = false) :
    StaysHalted s (u.applyAction a) := by
  cases a
  case load | resetMachine => cases ha
  case quit =>
    obtain ⟨-, hothers⟩ := h
    exact ⟨rfl, hothers⟩
  case pauseToggle =>
    obtain ⟨hhalted, hothers⟩ := h
    have htoggled : u.runState.toggled = .halted := by rw [hhalted]; rfl
    exact ⟨htoggled, hothers⟩
  all_goals exact h

/-- Settles O54: the host's turn leaves the core Halted as it was, no call is due, and the frame closes without a tick. -/
theorem haltedStaysHalted : Obligations.HaltedStaysHalted := by
  intro s t hhalted hactions hstep
  have hsame : StaysHalted s s := ⟨hhalted, rfl, rfl, rfl, rfl, rfl, rfl, rfl, rfl, rfl, rfl, rfl⟩
  have hopen : StaysHalted s s.openFrame :=
    State.openFrame_induction (P := StaysHalted s) hsame (fun _ => hsame)
      (fun as has a ha u hu => hu.applyAction (hactions as has a ha)) fun _ hu => hu
  have hnot : s.openFrame.runState ≠ .running := by
    rw [hopen.1]
    exact nofun
  rw [idleFrame s hnot] at hstep
  cases hstep
  exact hopen

/-! ### A parked machine -/

/-- Being parked reads neither the keypad, the timers nor the fields of the sequencer. -/
theorem State.Parked.congr {s t : State} (h : s.Parked) (ht : t = { s with
    keypad := t.keypad, dt := t.dt, st := t.st, call := t.call, batch := t.batch, events := t.events }) : t.Parked := by
  rw [ht]
  exact h

theorem State.fetch_of_wordAtPc {s : State} {w : Word} (h : s.wordAtPc = some w) : s.fetch = .ok w := by
  unfold State.wordAtPc at h
  split at h
  next w' hf => cases h; exact hf
  next => cases h

/-- A call of a parked machine is the jump to itself (R169(a)). -/
theorem executorCall_of_parked {s : State} (h : s.Parked) : executorCall s = .next { s with call := CallOutput.none } := by
  obtain ⟨-, -, -, nnn, hpc, hword⟩ := h
  rw [executorCall_of_decode_ok (State.fetch_of_wordAtPc hword) (decode_encode (.jp nnn)), exec_jp, hpc]
  rfl

theorem decToZero_toNat_le (b : Byte) : (decToZero b).toNat ≤ b.toNat := by
  rw [decToZero_toNat]
  exact Nat.sub_le _ _

theorem State.closeFrame_timers_le (s : State) :
    s.closeFrame.dt.toNat ≤ s.dt.toNat ∧ s.closeFrame.st.toNat ≤ s.st.toNat := by
  simp only [State.closeFrame_eq]
  split
  · exact ⟨decToZero_toNat_le s.dt, decToZero_toNat_le s.st⟩
  · exact ⟨le_rfl, le_rfl⟩

theorem State.afterCall_timers_le (s : State) :
    s.afterCall.dt.toNat ≤ s.dt.toNat ∧ s.afterCall.st.toNat ≤ s.st.toNat := by
  obtain h | ⟨-, -, -, h⟩ := s.afterCall_cases <;> rw [h, State.countCall_eq]
  · exact State.closeFrame_timers_le _
  · exact ⟨le_rfl, le_rfl⟩

/-- A step of a parked machine that the host leaves alone writes only what being parked does not read. -/
theorem step_of_parked {s t : State} (hparked : s.Parked) (hquiet : s.batch ≠ 0 ∨ s.inputs = []) (hstep : step s = .next t) :
    t = { s with keypad := t.keypad, dt := t.dt, st := t.st, call := t.call, batch := t.batch, events := t.events } ∧
    t.dt.toNat ≤ s.dt.toNat ∧ t.st.toNat ≤ s.st.toNat := by
  obtain ⟨keys, hopen⟩ := State.openFrame_quiet hquiet
  have hopenParked : { s with keypad := keys }.Parked := hparked
  obtain ⟨-, u, hcall, rfl⟩ | ⟨-, rfl⟩ := step_cases hstep
  · rw [hopen, executorCall_of_parked hopenParked] at hcall
    cases hcall
    refine ⟨?_, State.afterCall_timers_le _⟩
    rw [State.afterCall_frame]
  · rw [hopen]
    refine ⟨?_, State.closeFrame_timers_le _⟩
    rw [State.closeFrame_frame]

/-- Settles O55: the step is the jump to itself or the frame's end, and neither writes what being parked reads. -/
theorem parkedStaysParked : Obligations.ParkedStaysParked := by
  intro s t hparked hquiet hstep
  obtain ⟨hframe, hdt, hst⟩ := step_of_parked hparked hquiet hstep
  have hstays : t.Parked := hparked.congr hframe
  refine ⟨hstays, ?_, ?_, ?_, ?_, ?_, ?_, ?_, hdt, hst⟩ <;> rw [hframe]

end Sys2Proof.Machine

/-! The steps of a frame make the frame procedure (40_execution_cycle.md R78): a call that ends the batch is one step to the closed
frame, any other call is one step to a state inside the frame from which the rest of the loop goes on. -/

namespace Sys2Proof.Machine

/-! ### Steps that give an outcome -/

/-- Some number of steps from `s`, at least 1 and at most `n`, gives `o`; after every smaller number `j` (above 0) the machine is
inside the frame with `calls + j` calls made. -/
def StepsGive (s : State) (calls n : Nat) (o : Host.Outcome State Fault Refusal) : Prop :=
  ∃ k, 1 ≤ k ∧ k ≤ n ∧ runSteps k s = o ∧ ∀ j, 0 < j → j < k → ∃ u : State, runSteps j s = .next u ∧ u.batch = calls + j

theorem runSteps_succ_of_next {s t : State} (h : step s = .next t) (k : Nat) : runSteps (k + 1) s = runSteps k t := by
  rw [runSteps, h]

theorem StepsGive.of_step {s t : State} {calls n : Nat} (h : step s = .next t) (hn : 1 ≤ n) :
    StepsGive s calls n (.next t) :=
  ⟨1, le_rfl, hn, runSteps_succ_of_next h 0, fun j hpos hlt => by omega⟩

theorem StepsGive.cons {s t : State} {calls n : Nat} {o : Host.Outcome State Fault Refusal} (h : step s = .next t)
    (hbatch : t.batch = calls + 1) (hrest : StepsGive t (calls + 1) n o) : StepsGive s calls (n + 1) o := by
  obtain ⟨k, hpos, hle, hruns, hbetween⟩ := hrest
  refine ⟨k + 1, by omega, by omega, by rw [runSteps_succ_of_next h, hruns], fun j hj hlt => ?_⟩
  cases j with
  | zero => omega
  | succ j =>
    rw [runSteps_succ_of_next h]
    cases j with
    | zero => exact ⟨t, rfl, hbatch⟩
    | succ j =>
      obtain ⟨u, hu, hcount⟩ := hbetween (j + 1) (by omega) (by omega)
      exact ⟨u, hu, by omega⟩

/-! ### The loop of the procedure, one turn at a time -/

theorem batchLoop_of_ends {s t : State} {fuel : Nat} (hcall : executorCall s = .next t)
    (hends : t.fault ≠ none ∨ t.call.redraw = true) : batchLoop (fuel + 1) s = .next t.countCall := by
  have hstop : (t.fault.isSome || t.call.redraw) = true := by
    rw [Bool.or_eq_true, Option.isSome_iff_ne_none]
    exact hends
  simp only [batchLoop, hcall, hstop, if_true]

theorem batchLoop_of_goes_on {s t : State} {fuel : Nat} (hcall : executorCall s = .next t) (hfault : t.fault = none)
    (hredraw : t.call.redraw = false) : batchLoop (fuel + 1) s = batchLoop fuel t.countCall := by
  simp only [batchLoop, hcall, hfault, hredraw, Option.isSome_none, Bool.or_self, Bool.false_eq_true, if_false]

/-- With one call left the loop ends after it, whatever the call left. -/
theorem batchLoop_one {s t : State} (hcall : executorCall s = .next t) : batchLoop 1 s = .next t.countCall := by
  simp only [batchLoop, hcall, ite_self]

/-- A Running state with calls left inside the frame takes the next call. -/
theorem step_inside {s : State} (hinside : s.batch ≠ 0) (hrun : s.runState = .running) (hlimit : s.batch < s.ipf) :
    step s = andThen (executorCall s) State.afterCall := by
  have hopen := State.openFrame_inside hinside
  have hdue : s.openFrame.callDue = true := by rw [hopen, State.callDue_iff]; exact ⟨hrun, hlimit⟩
  rw [step_of_callDue hdue, hopen]

/-- The last call of a frame: one step to the closed frame. -/
theorem StepsGive.of_last_call {s u t : State} {n fuel : Nat} (hstep : step s = andThen (executorCall u) State.afterCall)
    (hcall : executorCall u = .next t) (hends : t.afterCall = t.countCall.closeFrame)
    (hloop : batchLoop (fuel + 1) u = .next t.countCall) (hn : 1 ≤ n) :
    StepsGive s u.batch n (andThen (batchLoop (fuel + 1) u) State.closeFrame) := by
  rw [hcall, andThen, hends] at hstep
  rw [hloop, andThen]
  exact .of_step hstep hn

/-- The steps from the call in `u` on, with `fuel + 1` calls left, are the loop with the frame closed behind it. -/
theorem stepsGive_batchLoop (fuel : Nat) : ∀ {s u : State}, step s = andThen (executorCall u) State.afterCall →
    u.runState = .running → u.batch + (fuel + 1) = u.ipf →
    StepsGive s u.batch (fuel + 1) (andThen (batchLoop (fuel + 1) u) State.closeFrame) := by
  induction fuel with
  | zero =>
    intro s u hstep hrun hlimit
    obtain ⟨t, hcall⟩ := exists_executorCall_eq_next u
    have hkeeps := executorCall_callKeeps hcall
    have hends : t.afterCall = t.countCall.closeFrame :=
      State.afterCall_of_ends (.inr (.inr (by rw [hkeeps.ipf, hkeeps.batch]; omega)))
    exact .of_last_call hstep hcall hends (batchLoop_one hcall) le_rfl
  | succ fuel ih =>
    intro s u hstep hrun hlimit
    obtain ⟨t, hcall⟩ := exists_executorCall_eq_next u
    have hkeeps := executorCall_callKeeps hcall
    by_cases hstop : t.fault ≠ none ∨ t.call.redraw = true
    · have hends : t.afterCall = t.countCall.closeFrame := State.afterCall_of_ends (or_assoc.mp (.inl hstop))
      exact .of_last_call hstep hcall hends (batchLoop_of_ends hcall hstop) (by omega)
    · simp only [not_or, not_not, Bool.not_eq_true] at hstop
      obtain ⟨hfault, hredraw⟩ := hstop
      have hleft : t.batch + 1 < t.ipf := by rw [hkeeps.batch, hkeeps.ipf]; omega
      have hcounted := t.countCall_batch
      rw [hkeeps.batch] at hcounted
      have hrun' : t.countCall.runState = .running := by
        rw [State.countCall_eq]
        exact (hkeeps.runState_of_fault_none hfault).trans hrun
      have hipf : t.countCall.ipf = u.ipf := by
        rw [State.countCall_eq]
        exact hkeeps.ipf
      rw [hcall, andThen, State.afterCall_of_not_ends hfault hredraw hleft] at hstep
      rw [batchLoop_of_goes_on hcall hfault hredraw]
      refine .cons hstep hcounted ?_
      rw [← hcounted]
      exact ih (step_inside (by omega) hrun' (by omega)) hrun' (by omega)

/-! ### The frame -/

theorem State.applyAction_batch {s : State} (a : HostAction) (h : s.batch = 0) : (s.applyAction a).batch = 0 := by
  cases a
  case load image =>
    rw [State.applyAction]
    split
    · rfl
    · exact h
  case resetMachine => rfl
  all_goals exact h

theorem State.openFrame_batch {s : State} (h : s.batch = 0) : s.openFrame.batch = 0 :=
  State.openFrame_induction (P := fun u => u.batch = 0) h (fun _ => h) (fun _ _ a _ _ hu => State.applyAction_batch a hu)
    fun _ hu => hu

/-- A frame with no call due: not Running, or no call in the batch. -/
theorem frame_of_not_callDue {s : State} (hbatch : s.batch = 0) (h : s.callDue = false) : frame s = .next s.closeFrame := by
  unfold frame
  split
  next hrun =>
    have hipf : s.ipf = 0 := by
      rw [← Bool.not_eq_true, State.callDue_iff, hbatch] at h
      by_contra hne
      exact h ⟨hrun, Nat.pos_of_ne_zero hne⟩
    rw [hipf, batchLoop, andThen]
  next => rfl

/-- Settles O49: with no call due the frame is one step; otherwise its steps are the loop of the procedure. -/
theorem stepsMakeTheFrame : Obligations.StepsMakeTheFrame := by
  intro s hbatch
  have hopen := State.openFrame_batch hbatch
  have hgive : StepsGive s 0 (max 1 s.openFrame.ipf) (frame s.openFrame) := by
    cases hdue : s.openFrame.callDue with
    | false =>
      rw [frame_of_not_callDue hopen hdue]
      exact .of_step (step_of_not_callDue hdue) (Nat.le_max_left _ _)
    | true =>
      obtain ⟨hrun, hlimit⟩ := s.openFrame.callDue_iff.mp hdue
      obtain ⟨fuel, hfuel⟩ : ∃ fuel, s.openFrame.ipf = fuel + 1 := Nat.exists_eq_succ_of_ne_zero (by omega)
      have hsteps := stepsGive_batchLoop fuel (step_of_callDue hdue) hrun (by omega)
      rw [hopen] at hsteps
      rw [frame, if_pos hrun, hfuel, Nat.max_eq_right (by omega)]
      exact hsteps
  simpa only [StepsGive, Nat.zero_add] using hgive

end Sys2Proof.Machine

/-! Reset, load and the run controls (70_reset_and_hazards.md R155, R156, 60_exceptions.md R146 to R151): memory of a fresh state, the
values of its fields, and the effect of each action of the host. -/

namespace Sys2Proof.Machine

/-! ### Memory of a placed image -/

theorem Memory.read_ofImage_outside (font : Vector Byte 80) (bs : List Byte) : ∀ {a b : Nat}, b < a ∨ a + bs.length ≤ b →
    Memory.read font (Memory.ofImage font a bs) b = Memory.base font b := by
  induction bs with
  | nil => exact fun _ => rfl
  | cons v bs ih =>
    intro a b h
    rw [List.length_cons] at h
    have hne : ¬ (b = a ∧ v ≠ Memory.base font a) := fun heq => by omega
    rw [Memory.ofImage, Memory.read_cell_append, if_neg hne]
    exact ih (by omega)

/-- A byte of the image that equals the reset contents has no cell, and is read from them. -/
theorem Memory.read_ofImage_inside (font : Vector Byte 80) (bs : List Byte) : ∀ {a k : Nat} (h : k < bs.length),
    Memory.read font (Memory.ofImage font a bs) (a + k) = bs[k] := by
  induction bs with
  | nil => exact fun h => absurd h (Nat.not_lt_zero _)
  | cons v bs ih =>
    intro a k h
    rw [Memory.ofImage, Memory.read_cell_append]
    cases k with
    | zero =>
      rw [Nat.add_zero, List.getElem_cons_zero]
      split
      · rfl
      · rename_i hbase
        rw [Memory.read_ofImage_outside font bs (.inl (Nat.lt_succ_self a))]
        simpa [eq_comm] using hbase
    | succ k =>
      have hshift : a + (k + 1) = a + 1 + k := by omega
      rw [if_neg (by omega), List.getElem_cons_succ, hshift]
      exact ih (Nat.lt_of_succ_lt_succ h)

theorem State.init_byteAt (s : State) (image : List Byte) (a : Nat) :
    (s.init image).byteAt a = Memory.read s.config.font (Memory.ofImage s.config.font 0x200 image) a := rfl

theorem State.init_byteAt_outside (s : State) {image : List Byte} {a : Nat} (h : a < 0x200 ∨ 0x200 + image.length ≤ a) :
    (s.init image).byteAt a = Memory.base s.config.font a := by
  rw [State.init_byteAt, Memory.read_ofImage_outside s.config.font image h]

/-- Settles O56: outside the image a fresh memory reads as the reset contents, which are the font and zeros. -/
theorem initialMemory : Obligations.InitialMemory := by
  intro s image a _
  refine ⟨fun h => ?font, fun hlow hhigh => ?below, fun k hk => ?image, fun h => ?above⟩
  case font => rw [s.init_byteAt_outside (.inl (by omega)), Memory.base, dif_pos h]
  case below => rw [s.init_byteAt_outside (.inl hhigh), Memory.base, dif_neg (by omega)]
  case image => rw [State.init_byteAt, Memory.read_ofImage_inside s.config.font image hk]
  case above => rw [s.init_byteAt_outside (.inr h), Memory.base, dif_neg (by omega)]

/-! ### Loads and run controls -/

theorem imageFits_iff (image : List Byte) : imageFits image = true ↔ image.length ≤ 3584 := decide_eq_true_iff

/-- Settles O57, by the test on the length. -/
theorem loadByLength : Obligations.LoadByLength := by
  intro s image
  refine ⟨fun h => ⟨?_, rfl⟩, fun h => ?_⟩
  · rw [State.applyAction, if_pos ((imageFits_iff image).mpr h)]
  · rw [State.applyAction, if_neg (by rw [imageFits_iff]; exact Nat.not_le.mpr h)]
    rfl

theorem State.applyAction_pauseToggle {s : State} {before after : RunState} (h : s.runState = before)
    (htoggled : before.toggled = after) : s.applyAction .pauseToggle = { s with runState := after } := by
  rw [State.applyAction, h, htoggled]

theorem State.ipf_debugToggle (s : State) :
    (s.applyAction .debugToggle).ipf = if s.debugEnabled = true then s.config.ipfNominal else 1 := by
  simp only [State.applyAction, State.ipf, Bool.not_eq_true', ← Bool.not_eq_true, ite_not]

/-- Settles O58: each control is its own record update, and the host's turn applies the listed actions in order. -/
theorem runControls : Obligations.RunControls := by
  refine ⟨fun s m keys => ⟨rfl, fun h => ?running, fun h => ?paused, fun h => ?halted, rfl, rfl, s.ipf_debugToggle, rfl, rfl⟩,
    fun s u now later hbatch hi hu => ?turn⟩
  case running => exact State.applyAction_pauseToggle h rfl
  case paused => exact State.applyAction_pauseToggle h rfl
  case halted => rw [State.applyAction_pauseToggle (after := .halted) h rfl, ← h]
  case turn => rw [State.openFrame_actions hbatch hi, ← hu]; rfl

/-! ### The values right after reset -/

theorem State.reset_getV (r : Reg) : State.reset.getV r = 0 := Vector.getElem_replicate _

theorem State.reset_pressed (k : Key) : State.reset.pressed k = false := Vector.getElem_replicate _

theorem State.reset_entry (j : Fin 16) : State.reset.stack[j] = 0 := Vector.getElem_replicate _

theorem State.reset_pixel (px : Fin 64) (py : Fin 32) : State.reset.pixel px py = false := Display.get_clear px py

/-- Settles O59: the state at reset holds the values, and `init` takes every field that a run could have changed from it. -/
theorem resetValues : Obligations.ResetValues := by
  refine ⟨⟨rfl, rfl, rfl, rfl, rfl, State.reset_getV, State.reset_pressed, State.reset_entry, rfl, rfl, rfl, rfl, rfl, rfl, rfl,
    rfl, State.reset_pixel⟩, fun s image => ?_⟩
  exact ⟨rfl, rfl, rfl, rfl, rfl, State.reset_getV, State.reset_pressed, State.reset_entry, State.reset_pixel, rfl, rfl, rfl, rfl,
    rfl, rfl, rfl, rfl, rfl, rfl, rfl, rfl, rfl⟩

end Sys2Proof.Machine
